-- ==== Sys2Proof/Word.lean ====
section
/-! DEFINITION. The words of the engine: bytes, 64-bit cells and operands, the 32-bit header size
(R6 and R8 of 00_scope.md). -/

namespace Sys2Proof

/-- A byte of the container, an opcode, or a byte on the OUT port: u8 of R8. -/
abbrev Byte := BitVec 8

/-- A Memory cell, an operand, the instruction pointer: 64 bits (R6, R22). A cell or an operand is
the signed reading `toInt` (two's complement, R8); the instruction pointer is the unsigned `toNat`. -/
abbrev Word := BitVec 64

/-- The header's `memorySize`: u32 (R6, R24). -/
abbrev Size := BitVec 32

/-- INT64_MIN of R8, as an exact integer. -/
def int64Min : Int := -9223372036854775808

/-- INT64_MAX of R8, as an exact integer. -/
def int64Max : Int := 9223372036854775807

end Sys2Proof
end

