-- ==== Sys2Proof/Config.lean ====
section
/-! DEFINITION. What the spec leaves to the implementation: the named parameters of R7 of 00_scope.md.
Their default values stand in Decode.lean (OPCODE_MAP) and Machine/Defaults.lean (the others). -/

namespace Sys2Proof

/-- The closed enumeration of the twelve operations, in the order of R88 of 30_encoding.md. -/
inductive Mnemonic where
  | nop | set | load | store | jmp | sgz | add | mul | div | mod | out | sleep
deriving DecidableEq, Repr

/-- The twelve operations in the order of R88. -/
def Mnemonic.all : List Mnemonic :=
  [.nop, .set, .load, .store, .jmp, .sgz, .add, .mul, .div, .mod, .out, .sleep]

/-- OPCODE_MAP of R7 and R88: the byte of each operation. The spec asks that the twelve be distinct
(`OpcodeMap.wf` of WellFormed.lean). -/
structure OpcodeMap where
  nop : Byte
  set : Byte
  load : Byte
  store : Byte
  jmp : Byte
  sgz : Byte
  add : Byte
  mul : Byte
  div : Byte
  mod : Byte
  out : Byte
  sleep : Byte
deriving DecidableEq, Repr

/-- OPCODE_MAP as the function of R7, from operations to bytes. -/
def OpcodeMap.code (map : OpcodeMap) : Mnemonic → Byte
  | .nop => map.nop
  | .set => map.set
  | .load => map.load
  | .store => map.store
  | .jmp => map.jmp
  | .sgz => map.sgz
  | .add => map.add
  | .mul => map.mul
  | .div => map.div
  | .mod => map.mod
  | .out => map.out
  | .sleep => map.sleep

/-- The two settings of ARITH_OVERFLOW and of DIV_OVERFLOW (R7, R210). -/
inductive OverflowMode where
  /-- The result is reduced modulo 2^64. -/
  | wrap
  /-- The step has no defined result: a fault of the model. -/
  | fault
deriving DecidableEq, Repr

/-- The fatal error classes of R281 of 60_exceptions.md: those that have a status code. -/
inductive FatalClass where
  | fileError | formatError | addressError
deriving DecidableEq, Repr

/-- STATUS_CODES of R7: the value of `status` at a fatal halt, a number the spec gives no width. -/
structure StatusCodes where
  fileError : Nat
  formatError : Nat
  addressError : Nat
deriving DecidableEq, Repr

/-- STATUS_CODES as the function of R7. -/
def StatusCodes.code (codes : StatusCodes) : FatalClass → Nat
  | .fileError => codes.fileError
  | .formatError => codes.formatError
  | .addressError => codes.addressError

/-- The parameters of R7, fixed for a run. DESIGN CHOICE (entry 2): carried by the state as a field
no step changes, because `exec` and `step` take no other argument. -/
structure Config where
  /-- OPCODE_MAP (D1). -/
  opcodeMap : OpcodeMap
  /-- MEM_CAPACITY: the largest `memorySize` the engine can allocate (D4). -/
  memCapacity : Nat
  /-- PROG_CAPACITY: the largest `instructionCount` the engine can store (D4). -/
  progCapacity : Nat
  /-- ARITH_OVERFLOW: ADD and MUL outside the i64 range (D7). -/
  arithOverflow : OverflowMode
  /-- DIV_OVERFLOW: DIV and MOD of -2^63 by -1 (D9). -/
  divOverflow : OverflowMode
  /-- STATUS_CODES (D13). -/
  statusCodes : StatusCodes
deriving DecidableEq, Repr

end Sys2Proof
end

