-- ==== Sys2Proof/Syntax.lean ====
section
/-! DEFINITION. The instruction, the record that holds it and the container, as plain data
(R12 of 00_scope.md; R80, R83, R84 of 30_encoding.md). -/

namespace Sys2Proof

/-- One instruction: one constructor per row of spec/opcode_table.json, with the three operands op1,
op2, op3 every record has (R86: "unused operands are present but ignored"). -/
inductive Instr where
  /-- R145: no-op. -/
  | nop (op1 op2 op3 : Word)
  /-- R161: op1 destination cell, op2 immediate. -/
  | set (op1 op2 op3 : Word)
  /-- R163: op1 destination cell, op2 pointer cell. -/
  | load (op1 op2 op3 : Word)
  /-- R166: op1 pointer cell, op2 source cell. -/
  | store (op1 op2 op3 : Word)
  /-- R181: op1 cell holding the target instruction index. -/
  | jmp (op1 op2 op3 : Word)
  /-- R184: op1 cell tested. -/
  | sgz (op1 op2 op3 : Word)
  /-- R202: op1 destination, op2 and op3 source cells. -/
  | add (op1 op2 op3 : Word)
  /-- R203: op1 destination, op2 and op3 source cells. -/
  | mul (op1 op2 op3 : Word)
  /-- R204: op1 destination, op2 dividend, op3 divisor. -/
  | div (op1 op2 op3 : Word)
  /-- R205: op1 destination, op2 dividend, op3 divisor. -/
  | mod (op1 op2 op3 : Word)
  /-- R231: op1 cell whose low byte is output. -/
  | out (op1 op2 op3 : Word)
  /-- R233: op1 cell holding the duration in milliseconds. -/
  | sleep (op1 op2 op3 : Word)
deriving DecidableEq, Repr

/-- The operation of an instruction. -/
def Instr.mnemonic : Instr → Mnemonic
  | .nop _ _ _ => .nop
  | .set _ _ _ => .set
  | .load _ _ _ => .load
  | .store _ _ _ => .store
  | .jmp _ _ _ => .jmp
  | .sgz _ _ _ => .sgz
  | .add _ _ _ => .add
  | .mul _ _ _ => .mul
  | .div _ _ _ => .div
  | .mod _ _ _ => .mod
  | .out _ _ _ => .out
  | .sleep _ _ _ => .sleep

/-- op1, op2, op3 of an instruction, in record order. -/
def Instr.operands : Instr → Word × Word × Word
  | .nop a b c => (a, b, c)
  | .set a b c => (a, b, c)
  | .load a b c => (a, b, c)
  | .store a b c => (a, b, c)
  | .jmp a b c => (a, b, c)
  | .sgz a b c => (a, b, c)
  | .add a b c => (a, b, c)
  | .mul a b c => (a, b, c)
  | .div a b c => (a, b, c)
  | .mod a b c => (a, b, c)
  | .out a b c => (a, b, c)
  | .sleep a b c => (a, b, c)

/-- The instruction of an operation and three operands. -/
def Instr.make (m : Mnemonic) (op1 op2 op3 : Word) : Instr :=
  match m with
  | .nop => .nop op1 op2 op3
  | .set => .set op1 op2 op3
  | .load => .load op1 op2 op3
  | .store => .store op1 op2 op3
  | .jmp => .jmp op1 op2 op3
  | .sgz => .sgz op1 op2 op3
  | .add => .add op1 op2 op3
  | .mul => .mul op1 op2 op3
  | .div => .div op1 op2 op3
  | .mod => .mod op1 op2 op3
  | .out => .out op1 op2 op3
  | .sleep => .sleep op1 op2 op3

/-- A record of the Program store (R29, R58): the opcode byte, assigned or not, and three operands. -/
structure Record where
  opcode : Byte
  op1 : Word
  op2 : Word
  op3 : Word
deriving DecidableEq, Repr

/-- What an ORC container holds (R80): the header's `memorySize` and the records in order. -/
structure Container where
  memorySize : Size
  program : List Record
deriving DecidableEq, Repr

end Sys2Proof
end

