-- ==== Sys2Proof/WellFormed.lean ====
section
/-! DEFINITION. The checks on configurations, instructions and containers. -/

namespace Sys2Proof

/-- R88: "the only requirement on it is that the twelve byte values are distinct". -/
abbrev OpcodeMap.wf (map : OpcodeMap) : Prop :=
  (Mnemonic.all.map map.code).Nodup

/-- R7: STATUS_CODES is injective and every value is nonzero. -/
abbrev StatusCodes.wf (codes : StatusCodes) : Prop :=
  codes.fileError ≠ 0 ∧ codes.formatError ≠ 0 ∧ codes.addressError ≠ 0 ∧
  codes.fileError ≠ codes.formatError ∧ codes.fileError ≠ codes.addressError ∧
  codes.formatError ≠ codes.addressError

/-- R7: the legal configurations. -/
abbrev Config.wf (cfg : Config) : Prop :=
  cfg.opcodeMap.wf ∧ cfg.memCapacity ≤ 2 ^ 32 - 1 ∧ cfg.progCapacity ≤ 2 ^ 63 - 1 ∧
  cfg.statusCodes.wf

/-- Every instruction is well-formed: "Within an assigned opcode, no operand value is illegal at
decode time" (R89), and an ignored operand may hold any i64 (R86). Operands are judged when executed. -/
def Instr.wf (_ : Instr) : Bool := true

/-- R81: a header's `memorySize` is 1 to 2^32 - 1. -/
abbrev Container.wf (c : Container) : Prop := c.memorySize ≠ 0

end Sys2Proof
end

