-- ==== Sys2Proof/Decode.lean ====
section
/-! DEFINITION. The bytes of the container: little-endian fields, the 25-byte record, decoding and
encoding (30_encoding.md), and the default OPCODE_MAP (R88, D1). -/

namespace Sys2Proof

/-- The default OPCODE_MAP of R7 and R88. DESIGN CHOICE of the spec (D1, entry 1): the source gives no
byte values, so nothing but the default itself may rest on these numbers. -/
def defaultOpcodeMap : OpcodeMap where
  nop := 0x00
  set := 0x01
  load := 0x02
  store := 0x03
  jmp := 0x04
  sgz := 0x05
  add := 0x06
  mul := 0x07
  div := 0x08
  mod := 0x09
  out := 0x0A
  sleep := 0x0B

/-! ## Little-endian fields -/

/-- `LE_u` of R9: the unsigned little-endian value of a byte sequence. -/
def leNat : List Byte → Nat
  | [] => 0
  | b :: rest => b.toNat + 256 * leNat rest

/-- The `n` low bytes of `v`, least significant first (R93). -/
def leBytes : Nat → Nat → List Byte
  | 0, _ => []
  | n + 1, v => BitVec.ofNat 8 v :: leBytes n (v / 256)

/-- `LE_s64` of R9 on the eight bytes of an operand: the 64 bits whose signed reading is the operand. -/
def leWord (bytes : List Byte) : Word := BitVec.ofNat 64 (leNat bytes)

/-- RECORD_BYTES of R6: one opcode byte and three operands of eight bytes. -/
def recordBytes : Nat := 25

/-! ## Decoding -/

/-- The record of 25 bytes, R84: opcode at offset 0, op1 at 1, op2 at 9, op3 at 17. Total: "decoding
a complete record cannot fail". -/
def recordOfBytes (r : List Byte) : Record where
  opcode := r.getD 0 0
  op1 := leWord ((r.drop 1).take 8)
  op2 := leWord ((r.drop 9).take 8)
  op3 := leWord ((r.drop 17).take 8)

/-- The operation an opcode byte selects under a map, R144: the mnemonic with that byte, if there is one. -/
def OpcodeMap.mnemonic (map : OpcodeMap) (opcode : Byte) : Option Mnemonic :=
  Mnemonic.all.find? (fun m => map.code m == opcode)

/-- Why bytes are not an instruction. -/
inductive DecodeError where
  /-- R89: no operation has this byte. Executing such a record is R147, not an error of the model. -/
  | unknownOpcode (opcode : Byte)
  /-- R83: a record is exactly 25 bytes, and these are `length`. -/
  | notARecord (length : Nat)
deriving DecidableEq, Repr

/-- R144: decoding a record looks at the opcode byte only. -/
def decodeRecord (map : OpcodeMap) (r : Record) : Except DecodeError Instr :=
  match map.mnemonic r.opcode with
  | some m => .ok (Instr.make m r.op1 r.op2 r.op3)
  | none => .error (.unknownOpcode r.opcode)

/-- Decoding of any bytes: R83, R84, R144. -/
def decode (map : OpcodeMap) (bytes : List Byte) : Except DecodeError Instr :=
  if bytes.length = recordBytes then decodeRecord map (recordOfBytes bytes)
  else .error (.notARecord bytes.length)

/-! ## Encoding -/

/-- The record of an instruction under a map. -/
def recordOfInstr (map : OpcodeMap) (i : Instr) : Record where
  opcode := map.code i.mnemonic
  op1 := i.operands.1
  op2 := i.operands.2.1
  op3 := i.operands.2.2

/-- The 25 bytes of a record: R84 and R93. -/
def bytesOfRecord (r : Record) : List Byte :=
  r.opcode :: (leBytes 8 r.op1.toNat ++ leBytes 8 r.op2.toNat ++ leBytes 8 r.op3.toNat)

/-- `Encode` of R93. -/
def encode (map : OpcodeMap) (i : Instr) : List Byte := bytesOfRecord (recordOfInstr map i)

/-- The magic of R82, "ORC" in ASCII. PRESUMED by the spec from the ASCII table (G1, entry 22). -/
def magic : List Byte := [0x4F, 0x52, 0x43]

/-- `Container(memorySize, ...)` of R93: the header of R81, then the records, with no padding (R80). -/
def encodeContainer (c : Container) : List Byte :=
  magic ++ leBytes 4 c.memorySize.toNat ++ c.program.flatMap bytesOfRecord

/-! ## The opcode table's numbering -/

/-- The 25 bytes of the word `W` of R85, of which only the low `nbits` bits are given. -/
def bytesOfTableWord (nbits w : Nat) : List Byte := leBytes recordBytes (w % 2 ^ nbits)

/-- What the decoder reads from an instruction's bits numbered as spec/opcode_table.json numbers them
(R85), under the default OPCODE_MAP, which is the table's. -/
def decodeTableWord (nbits w : Nat) : Option Instr :=
  (decode defaultOpcodeMap (bytesOfTableWord nbits w)).toOption

/-! ## Notation -/

/-- The mnemonic in upper case, R92. -/
def Mnemonic.name : Mnemonic → String
  | .nop => "NOP"
  | .set => "SET"
  | .load => "LOAD"
  | .store => "STORE"
  | .jmp => "JMP"
  | .sgz => "SGZ"
  | .add => "ADD"
  | .mul => "MUL"
  | .div => "DIV"
  | .mod => "MOD"
  | .out => "OUT"
  | .sleep => "SLEEP"

/-- One hexadecimal digit in upper case. -/
def hexDigit (n : Nat) : Char := if n < 10 then Char.ofNat (48 + n) else Char.ofNat (55 + n)

/-- A record in the notation of R92, operands in full as signed decimals, an unassigned byte as OP_0xNN. -/
def Record.notated (map : OpcodeMap) (r : Record) : String :=
  (match map.mnemonic r.opcode with
   | some m => m.name
   | none => "OP_0x" ++ String.ofList [hexDigit (r.opcode.toNat / 16), hexDigit (r.opcode.toNat % 16)])
  ++ "(" ++ toString r.op1.toInt ++ ", " ++ toString r.op2.toInt ++ ", " ++ toString r.op3.toInt ++ ")"

end Sys2Proof
end

