-- ==== Sys2Proof/Machine/Defaults.lean ====
section
/-! DEFINITION. The default parameters of R7 of 00_scope.md. -/

namespace Sys2Proof.Machine

/-- The defaults of R7. DESIGN CHOICE of the spec (D1, D4, D7, D9, D13; entries 1, 11, 12, 13, 16). -/
def defaultConfig : Config where
  opcodeMap := defaultOpcodeMap
  memCapacity := 2 ^ 32 - 1
  progCapacity := 2 ^ 63 - 1
  arithOverflow := .wrap
  divOverflow := .wrap
  statusCodes := { fileError := 1, formatError := 2, addressError := 3 }

end Sys2Proof.Machine
end

