-- ==== Sys2Proof/Machine/State.lean ====
section
/-! DEFINITION. The state of the engine, as plain data: everything 10_state.md gives it, the event
trace of R30, the IN port of R251 and the parameters of R7. -/

namespace Sys2Proof.Machine

/-! ## Run-state -/

/-- `phase` of R26. -/
inductive Phase where
  | load | run | halt
deriving DecidableEq, Repr

/-! ## The IN port -/

/-- The input of a run, R111 and R252. -/
inductive Input where
  /-- The host could not supply the stream. -/
  | unavailable
  /-- A finite byte sequence followed by end-of-stream. -/
  | bytes (b : List Byte)
deriving DecidableEq, Repr

/-- The IN port. The engine pulls bytes in order (R252) and releases the port before execution (R254). -/
inductive InPort where
  /-- What the port has still to deliver. -/
  | opened (rest : Input)
  /-- Released at the end of phase LOAD (R119, R120, R124): no further IN transaction exists. -/
  | released
deriving DecidableEq, Repr

/-- The Loader's working state, R31 and R121. -/
structure LoaderState where
  /-- The count of bytes consumed. -/
  consumed : Nat
  /-- The bytes received of the field or record now being received: fewer than 25. -/
  buffer : List Byte
deriving DecidableEq, Repr

/-- The Loader at offset 0 (R330). -/
def LoaderState.initial : LoaderState := { consumed := 0, buffer := [] }

/-! ## Events -/

/-- The five error classes of R280. -/
inductive ErrorClass where
  | fileError | formatError | addressError | arithmeticError | unknownOpcodeError
deriving DecidableEq, Repr

/-- Fatal or recoverable (R281). -/
inductive Severity where
  | fatal | recoverable
deriving DecidableEq, Repr

/-- The detail of a FormatError, R118 and R257 (D22). -/
inductive FormatDefect where
  | truncatedHeader | badMagic | zeroMemorySize | truncatedRecord
deriving DecidableEq, Repr

/-- The kind of an AddressError, R257: a failed `Check`, or a failed target test of JMP. -/
inductive AddressKind where
  | memIndex | jumpTarget
deriving DecidableEq, Repr

/-- A diagnostic `Diag(class, at, detail)`, R257: one constructor per class, holding that class's `at`
(the `ip`, where it has one) and detail. The text of a message is not modelled (R5, entry 17). -/
inductive Diagnostic where
  | fileError
  | formatError (defect : FormatDefect)
  | addressError (loc : Word) (kind : AddressKind) (value : Word)
  | arithmeticError (loc : Word) (operation : Mnemonic)
  | unknownOpcodeError (loc : Word) (opcode : Byte)
deriving DecidableEq, Repr

/-- An event, R255: on OUT, on DELAY, or on DIAG. -/
inductive Event where
  /-- One byte on OUT. -/
  | out (c : Byte)
  /-- A delay request on DELAY: the raw cell, in milliseconds. -/
  | sleep (d : Word)
  /-- A diagnostic on DIAG. -/
  | diag (d : Diagnostic)
deriving DecidableEq, Repr

/-! ## Memory -/

/-- Memory, R28 and R51: a list of (cell index, cell) pairs. Canonical form: indices strictly rising, no
listed cell 0, which is what an unlisted index reads as (R52); see `Memory.wf`. The unit is the cell,
not the byte, since a cell has no bytes and no byte order (R51, R55, R61; entry 5). -/
abbrev Memory := List (Nat × Word)

/-! ## Why a step stops -/

/-- Faults. The engine has none of its own: its errors are next states. -/
inductive Fault where
  /-- `ModelFault(ArithOverflow, ip)` of R210: raised by ADD and MUL under `ARITH_OVERFLOW = fault` and
  by DIV and MOD under `DIV_OVERFLOW = fault`, never under the defaults. Safe: nothing is claimed of
  what follows. -/
  | arithOverflow (ip : Word)
deriving DecidableEq, Repr

/-- Refusals. -/
inductive Refusal where
  /-- An instruction without a meaning, refused by its arm of `exec`. No arm does so. Safe. -/
  | notModelled (mnemonic : String)
  /-- R114: the header asks for more cells than MEM_CAPACITY; the Loader raises it. Never under the
  default capacity. Safe: the spec gives such a run no meaning. -/
  | memCapacityExceeded
  /-- R117: more records than PROG_CAPACITY; the Loader raises it at end-of-stream. Safe, as above. -/
  | progCapacityExceeded
  /-- U10 and N7: the IN port stops answering in mid-stream, or is already released in phase LOAD. The
  Loader raises it; no run whose host keeps R252 meets it. Safe: the spec says "not modelled; a model
  that meets it should `refuse`". -/
  | inputLost
deriving DecidableEq, Repr

/-! ## The state -/

/-- The whole state of the engine. `instructionCount` (R25) is the length of `program` (R12, R117) and
is the view `State.instructionCount` of Ops.lean, not a second copy of it (entry 9). -/
structure State where
  /-- The parameters of R7, changed by no step (entry 2). -/
  cfg : Config
  /-- R26. -/
  phase : Phase
  /-- R27: meaningful in phase HALT only. -/
  status : Nat
  /-- R22: the index of the instruction to execute; unsigned. -/
  ip : Word
  /-- R24: the number of Memory cells, set by the Loader. -/
  memorySize : Size
  /-- R28. -/
  mem : Memory
  /-- R29: the Program store. -/
  program : List Record
  /-- R30: every event since reset, oldest first. -/
  trace : List Event
  /-- R251: the IN port. -/
  inPort : InPort
  /-- R31: the Loader's working state. -/
  loader : LoaderState
deriving DecidableEq, Repr

/-- Reset, R34 and R330. Two values are not the spec's: `memorySize` 0, which R34 leaves unspecified
(DESIGN CHOICE, entry 4), and an IN port that answers Unavailable, since no input has been supplied
(DESIGN CHOICE, entry 3). The parameters are the defaults of R7. -/
def State.reset : State where
  cfg := defaultConfig
  phase := .load
  status := 0
  ip := 0
  memorySize := 0
  mem := []
  program := []
  trace := []
  inPort := .opened .unavailable
  loader := LoaderState.initial

end Sys2Proof.Machine
end

