-- ==== Sys2Proof/Machine/Ops.lean ====
section
/-! DEFINITION. The named operations: Memory cells, the address test, events, the `ip` update, and the
taking of an error, fatal or recoverable (20_memory.md, 41_fetch_dispatch.md, 60_exceptions.md). -/

namespace Sys2Proof.Machine

/-! ## Memory -/

/-- What a cell nothing has written reads as: "Cells MUST be deterministically initialized to `0` at
allocation" (R52). -/
def unwritten : Word := 0

/-- `M[a]` of R51: the listed value of cell `a`, or `unwritten`. -/
def Memory.readCell : Memory → Nat → Word
  | [], _ => unwritten
  | (b, v) :: rest, a => if b = a then v else Memory.readCell rest a

/-- The memory with no entry for cell `a`. -/
def Memory.eraseCell (m : Memory) (a : Nat) : Memory := m.filter (fun c => c.1 != a)

/-- The memory with an entry for cell `a` put in its place. -/
def Memory.insertCell : Memory → Nat → Word → Memory
  | [], a, v => [(a, v)]
  | (b, w) :: rest, a, v =>
    if a < b then (a, v) :: (b, w) :: rest else (b, w) :: Memory.insertCell rest a v

/-- `M[a] <- v` of R55: all 64 bits of the cell are replaced and no other cell changes. Writing what an
unlisted cell reads as removes the entry. -/
def Memory.writeCell (m : Memory) (a : Nat) (v : Word) : Memory :=
  if v = unwritten then m.eraseCell a else (m.eraseCell a).insertCell a v

/-- The canonical form: indices strictly rising, no listed cell equal to `unwritten`. -/
abbrev Memory.wf (m : Memory) : Prop :=
  m.Pairwise (fun c d => c.1 < d.1) ∧ ∀ c ∈ m, c.2 ≠ unwritten

/-- The test of `Check(a)`, R53: `0 <= a < memorySize`, the whole signed 64-bit value against the
zero-extended size, no bits discarded (D6). -/
abbrev State.inRange (s : State) (a : Word) : Prop :=
  0 ≤ a.toInt ∧ a.toInt < (s.memorySize.toNat : Int)

/-- `M[a]` of a state. -/
def State.readCell (s : State) (a : Nat) : Word := s.mem.readCell a

/-- `M[a] <- v` on a state. -/
def State.writeCell (s : State) (a : Nat) (v : Word) : State :=
  { s with mem := s.mem.writeCell a v }

/-! ## The instruction pointer and the fetch -/

/-- `instructionCount` of R25: the length of the Program (R12, R117). -/
def State.instructionCount (s : State) : Nat := s.program.length

/-- The fetch of R141: `P[ip]`, or nothing when `ip >= instructionCount`. It cannot fail otherwise (R58). -/
def State.fetch (s : State) : Option Record := s.program[s.ip.toNat]?

/-- `next = ip + 1`, R142. -/
def State.advance (s : State) : State := { s with ip := s.ip + 1 }

/-- `next = ip + 2`: a taking SGZ (R184). -/
def State.skipNext (s : State) : State := { s with ip := s.ip + 2 }

/-- `ip <- t`, R142: the next instruction executed is `P[t]` (R181). -/
def State.jumpTo (s : State) (t : Word) : State := { s with ip := t }

/-! ## Events -/

/-- `emit E` of R255: appended to the trace. -/
def State.emit (s : State) (e : Event) : State := { s with trace := s.trace ++ [e] }

/-! ## Errors -/

/-- The class of a diagnostic, R257. -/
def Diagnostic.errorClass : Diagnostic → ErrorClass
  | .fileError => .fileError
  | .formatError _ => .formatError
  | .addressError _ _ _ => .addressError
  | .arithmeticError _ _ => .arithmeticError
  | .unknownOpcodeError _ _ => .unknownOpcodeError

/-- The `at` of a diagnostic, R257. -/
def Diagnostic.loc : Diagnostic → Option Word
  | .fileError => none
  | .formatError _ => none
  | .addressError l _ _ => some l
  | .arithmeticError l _ => some l
  | .unknownOpcodeError l _ => some l

/-- The severity of each class, R281. -/
def ErrorClass.severity : ErrorClass → Severity
  | .fileError => .fatal
  | .formatError => .fatal
  | .addressError => .fatal
  | .arithmeticError => .recoverable
  | .unknownOpcodeError => .recoverable

/-- The cause codes of R281, which label diagnostics (D13). -/
def ErrorClass.causeCode : ErrorClass → Nat
  | .fileError => 1
  | .formatError => 2
  | .addressError => 3
  | .arithmeticError => 4
  | .unknownOpcodeError => 5

/-- The fatal classes among the five. -/
def FatalClass.errorClass : FatalClass → ErrorClass
  | .fileError => .fileError
  | .formatError => .formatError
  | .addressError => .addressError

/-- TAKING A FATAL ERROR, shared by R120 and R284: one diagnostic, `status <- STATUS_CODES(class)`,
`phase <- HALT`. Nothing is saved, there is no handler, and only reset leaves HALT (R285). -/
def State.takeFatal (s : State) (c : FatalClass) (d : Diagnostic) : State :=
  { s with trace := s.trace ++ [.diag d], status := s.cfg.statusCodes.code c, phase := .halt }

/-- `raise AddressError(kind, v)`, R284: `ip` keeps the faulting index, Memory is untouched. -/
def State.raiseAddressError (s : State) (kind : AddressKind) (v : Word) : State :=
  s.takeFatal .addressError (.addressError s.ip kind v)

/-- TAKING A RECOVERABLE ERROR and returning from it, R288 and R292: one diagnostic, then the ordinary
advance; `phase` and `status` untouched. -/
def State.recover (s : State) (d : Diagnostic) : State := (s.emit (.diag d)).advance

/-- Normal termination, R143. -/
def State.haltNormally (s : State) : State := { s with status := 0, phase := .halt }

/-- Executing a record whose opcode byte is unassigned, R147. -/
def State.unknownOpcode (s : State) (opcode : Byte) : State :=
  s.recover (.unknownOpcodeError s.ip opcode)

end Sys2Proof.Machine
end

