-- ==== Sys2Proof/Machine/Flags.lean ====
section
/-! DEFINITION. The engine has no flags (R21 of 10_state.md). What stands here is the one test other
machines would keep in an overflow flag: whether an exact result is an i64, which R210 of
44_arithmetic.md asks about and no instruction records. -/

namespace Sys2Proof.Machine

/-- An exact integer inside [INT64_MIN, INT64_MAX]. -/
abbrev fitsInt64 (z : Int) : Prop := int64Min ≤ z ∧ z ≤ int64Max

/-- The overflow test of a sum or a product: the exact result is outside the i64 range (R202, R203). -/
def arithOverflows (exact : Int) : Bool := !decide (fitsInt64 exact)

/-- The overflow test of DIV and MOD: the exact quotient is outside the i64 range, which is the one case
INT64_MIN by -1 (R204, R209). The remainder itself never overflows (R205). -/
def divOverflows (dividend divisor : Int) : Bool := !decide (fitsInt64 (dividend.tdiv divisor))

end Sys2Proof.Machine
end

