-- ==== Sys2Proof/Machine/Operands.lean ====
section
/-! DEFINITION. The operand roles of R87 of 30_encoding.md, as data and as the checked accesses the
meanings use, and the narrowing of a result to a cell (R9, R210). -/

namespace Sys2Proof.Machine

/-- The roles of R87. -/
inductive Role where
  /-- The i64 is the value itself; no check. -/
  | imm
  /-- Direct address: `Check(op)`. -/
  | addr
  /-- Address-of-address: `Check(op)`, then `Check(M[op])`. -/
  | ptr
  /-- Not used, not checked. -/
  | ignored
deriving DecidableEq, Repr

/-- The table of R87: the roles of op1, op2, op3. -/
def operandRoles : Mnemonic → Role × Role × Role
  | .nop => (.ignored, .ignored, .ignored)
  | .set => (.addr, .imm, .ignored)
  | .load => (.addr, .ptr, .ignored)
  | .store => (.ptr, .addr, .ignored)
  | .jmp => (.addr, .ignored, .ignored)
  | .sgz => (.addr, .ignored, .ignored)
  | .add => (.addr, .addr, .addr)
  | .mul => (.addr, .addr, .addr)
  | .div => (.addr, .addr, .addr)
  | .mod => (.addr, .addr, .addr)
  | .out => (.addr, .ignored, .ignored)
  | .sleep => (.addr, .ignored, .ignored)

/-- Whether an operand of this role is address-bearing, so checked before use (R57). -/
def Role.isAddress : Role → Bool
  | .imm => false
  | .addr => true
  | .ptr => true
  | .ignored => false

/-- The address-bearing operands of an instruction in operand order, R57 step (1) and R283. -/
def addressOperands (i : Instr) : List Word :=
  let r := operandRoles i.mnemonic
  let o := i.operands
  ([(r.1, o.1), (r.2.1, o.2.1), (r.2.2, o.2.2)].filter (fun p => p.1.isAddress)).map Prod.snd

/-- The answer of a meaning. -/
abbrev Answer := Host.Outcome State Fault Refusal

/-- `Check(a)` and then the rest of the instruction with the cell index: a failed check raises
AddressError(MemIndex, a) and the rest does not happen (R53, R284). Used for a direct address, for a
pointer cell, and again for the index read through a pointer (R56). -/
def checked (s : State) (a : Word) (rest : Nat → Answer) : Answer :=
  if s.inRange a then rest a.toNat else .next (s.raiseAddressError .memIndex a)

/-- The three checks and two reads of an arithmetic instruction, R201: op1, op2, op3 in this order, then
the left and right values. -/
def withTernary (s : State) (op1 op2 op3 : Word) (rest : Nat → Word → Word → Answer) : Answer :=
  checked s op1 fun d =>
  checked s op2 fun x =>
  checked s op3 fun y =>
  rest d (s.readCell x) (s.readCell y)

/-- The cell an instruction may write, the "Memory cell written" column of R60 of 20_memory.md: op1, but
for STORE the cell its pointer names (R168). -/
def destinationCell (s : State) : Instr → Option Nat
  | .nop _ _ _ => none
  | .set op1 _ _ => some op1.toNat
  | .load op1 _ _ => some op1.toNat
  | .store op1 _ _ => some (s.readCell op1.toNat).toNat
  | .jmp _ _ _ => none
  | .sgz _ _ _ => none
  | .add op1 _ _ => some op1.toNat
  | .mul op1 _ _ => some op1.toNat
  | .div op1 _ _ => some op1.toNat
  | .mod op1 _ _ => some op1.toNat
  | .out _ _ _ => none
  | .sleep _ _ _ => none

/-- `wrap64` of R9: the cell whose signed reading is `z` modulo 2^64. -/
def wrap64 (z : Int) : Word := BitVec.ofInt 64 z

/-- The one write of an arithmetic instruction and its advance, under the overflow setting: a case that
overflows under `fault` is the model fault of R210, every other case writes `wrap64(result)`. -/
def writeResult (s : State) (mode : OverflowMode) (overflows : Bool) (d : Nat) (result : Int) :
    Answer :=
  if mode = .fault ∧ overflows then .fault (.arithOverflow s.ip)
  else .next (s.writeCell d (wrap64 result)).advance

/-- The target test of JMP, R181: `0 <= t < instructionCount`, compared as a full signed value. -/
abbrev State.isTarget (s : State) (t : Word) : Prop :=
  0 ≤ t.toInt ∧ t.toInt < (s.instructionCount : Int)

/-- The low byte of a cell, `to_u64(v)[7:0]` of R231. -/
def lowByte (v : Word) : Byte := v.setWidth 8

end Sys2Proof.Machine
end

