-- ==== Sys2Proof/Machine/Arithmetic.lean ====
section
/-! DEFINITION. ADD, MUL, DIV, MOD (44_arithmetic.md). -/

namespace Sys2Proof.Machine

/-- ADD, R202. -/
def execAdd (op1 op2 op3 : Word) (s : State) : Host.Outcome State Fault Refusal :=
  withTernary s op1 op2 op3 fun d a b =>
  writeResult s s.cfg.arithOverflow (arithOverflows (a.toInt + b.toInt)) d (a.toInt + b.toInt)

/-- MUL, R203. -/
def execMul (op1 op2 op3 : Word) (s : State) : Host.Outcome State Fault Refusal :=
  withTernary s op1 op2 op3 fun d a b =>
  writeResult s s.cfg.arithOverflow (arithOverflows (a.toInt * b.toInt)) d (a.toInt * b.toInt)

/-- DIV, R204: the quotient rounded toward zero (D8); a zero divisor is the recoverable ArithmeticError
with no write (R206). -/
def execDiv (op1 op2 op3 : Word) (s : State) : Host.Outcome State Fault Refusal :=
  withTernary s op1 op2 op3 fun d a b =>
  if b = 0 then .next (s.recover (.arithmeticError s.ip .div))
  else writeResult s s.cfg.divOverflow (divOverflows a.toInt b.toInt) d (a.toInt.tdiv b.toInt)

/-- MOD, R205: the remainder that goes with DIV's quotient, `a - tdiv(a, b) * b`. -/
def execMod (op1 op2 op3 : Word) (s : State) : Host.Outcome State Fault Refusal :=
  withTernary s op1 op2 op3 fun d a b =>
  if b = 0 then .next (s.recover (.arithmeticError s.ip .mod))
  else writeResult s s.cfg.divOverflow (divOverflows a.toInt b.toInt) d
    (a.toInt - a.toInt.tdiv b.toInt * b.toInt)

end Sys2Proof.Machine
end

