-- ==== Sys2Proof/Machine/Control.lean ====
section
/-! DEFINITION. JMP and SGZ (43_control.md). -/

namespace Sys2Proof.Machine

/-- JMP, R181: the target is the value of the cell, tested against `instructionCount`; a target outside
is AddressError(JumpTarget, t). -/
def execJmp (op1 _op2 _op3 : Word) (s : State) : Host.Outcome State Fault Refusal :=
  checked s op1 fun c =>
  if s.isTarget (s.readCell c) then .next (s.jumpTo (s.readCell c))
  else .next (s.raiseAddressError .jumpTarget (s.readCell c))

/-- SGZ, R184: a signed and strict test; the skip itself is never an error (R186). -/
def execSgz (op1 _op2 _op3 : Word) (s : State) : Host.Outcome State Fault Refusal :=
  checked s op1 fun c =>
  if 0 < (s.readCell c).toInt then .next s.skipNext else .next s.advance

end Sys2Proof.Machine
end

