-- ==== Sys2Proof/Machine/DataMovement.lean ====
section
/-! DEFINITION. NOP (41_fetch_dispatch.md) and SET, LOAD, STORE (42_data_movement.md). -/

namespace Sys2Proof.Machine

/-- NOP, R145: nothing but the advance, whatever the operands. -/
def execNop (_op1 _op2 _op3 : Word) (s : State) : Host.Outcome State Fault Refusal :=
  .next s.advance

/-- SET, R161: `Check(op1); M[op1] <- op2`. -/
def execSet (op1 op2 _op3 : Word) (s : State) : Host.Outcome State Fault Refusal :=
  checked s op1 fun d => .next (s.writeCell d op2).advance

/-- LOAD, R163: `Check(op1); Check(op2); t <- M[op2]; Check(t); M[op1] <- M[t]`. -/
def execLoad (op1 op2 _op3 : Word) (s : State) : Host.Outcome State Fault Refusal :=
  checked s op1 fun d =>
  checked s op2 fun p =>
  checked s (s.readCell p) fun t =>
  .next (s.writeCell d (s.readCell t)).advance

/-- STORE, R166: `Check(op1); Check(op2); t <- M[op1]; Check(t); M[t] <- M[op2]`. -/
def execStore (op1 op2 _op3 : Word) (s : State) : Host.Outcome State Fault Refusal :=
  checked s op1 fun p =>
  checked s op2 fun x =>
  checked s (s.readCell p) fun t =>
  .next (s.writeCell t (s.readCell x)).advance

end Sys2Proof.Machine
end

