-- ==== Sys2Proof/Machine/InputOutput.lean ====
section
/-! DEFINITION. OUT and SLEEP (45_io.md). -/

namespace Sys2Proof.Machine

/-- OUT, R231: one raw byte on OUT. -/
def execOut (op1 _op2 _op3 : Word) (s : State) : Host.Outcome State Fault Refusal :=
  checked s op1 fun c => .next (s.emit (.out (lowByte (s.readCell c)))).advance

/-- SLEEP, R233: a request carrying the raw cell; the model has no time, so the host's answer is part of
the same step (D15, entry 18). -/
def execSleep (op1 _op2 _op3 : Word) (s : State) : Host.Outcome State Fault Refusal :=
  checked s op1 fun c => .next (s.emit (.sleep (s.readCell c))).advance

end Sys2Proof.Machine
end

