-- ==== Sys2Proof/Machine/Dispatch.lean ====
section
/-! DEFINITION. The opcode dispatcher: one arm per operation, R146 of 41_fetch_dispatch.md. -/

namespace Sys2Proof.Machine

/-- The whole effect of one instruction, its `ip` update included (R142, R146). -/
def exec (i : Instr) (s : State) : Host.Outcome State Fault Refusal :=
  match i with
  | .nop op1 op2 op3 => Sys2Proof.Machine.execNop op1 op2 op3 s
  | .set op1 op2 op3 => Sys2Proof.Machine.execSet op1 op2 op3 s
  | .load op1 op2 op3 => Sys2Proof.Machine.execLoad op1 op2 op3 s
  | .store op1 op2 op3 => Sys2Proof.Machine.execStore op1 op2 op3 s
  | .jmp op1 op2 op3 => Sys2Proof.Machine.execJmp op1 op2 op3 s
  | .sgz op1 op2 op3 => Sys2Proof.Machine.execSgz op1 op2 op3 s
  | .add op1 op2 op3 => Sys2Proof.Machine.execAdd op1 op2 op3 s
  | .mul op1 op2 op3 => Sys2Proof.Machine.execMul op1 op2 op3 s
  | .div op1 op2 op3 => Sys2Proof.Machine.execDiv op1 op2 op3 s
  | .mod op1 op2 op3 => Sys2Proof.Machine.execMod op1 op2 op3 s
  | .out op1 op2 op3 => Sys2Proof.Machine.execOut op1 op2 op3 s
  | .sleep op1 op2 op3 => Sys2Proof.Machine.execSleep op1 op2 op3 s

end Sys2Proof.Machine
end

