-- ==== Sys2Proof/Machine/Loader.lean ====
section
/-! DEFINITION. The Loader (40_loader.md), twice: as one function of the input (R118), and as the streaming
deserializer of R121, one byte of IN a step, which is what `step` runs in phase LOAD (entry 6). That the
two agree is a statement for the provers. -/

namespace Sys2Proof.Machine

/-- MAGIC_BYTES of R6. -/
def magicBytes : Nat := 3

/-- HEADER_BYTES of R6: magic and size; records start here. -/
def headerBytes : Nat := 7

/-- The header's `memorySize` from its four bytes, R81. -/
def leSize (bytes : List Byte) : Size := BitVec.ofNat 32 (leNat bytes)

/-! ## Outcomes -/

/-- The outcome of a load, R118. -/
inductive LoadOutcome where
  | ok (memorySize : Size) (program : List Record)
  | fail (c : FatalClass) (d : Diagnostic)
  | refuse (r : Refusal)
deriving DecidableEq, Repr

/-- R119: Memory exists and is all 0, the Program is filled, `ip` is untouched, IN is released, the working
state is gone (R31), phase RUN; no event. -/
def State.enterRun (s : State) (memorySize : Size) (program : List Record) : State :=
  { s with memorySize := memorySize, mem := [], program := program, inPort := .released,
           loader := LoaderState.initial, phase := .run }

/-- R120: one diagnostic, IN released, `status`, phase HALT; "Whatever part of Memory or the Program had been
built is not observable and is discarded". `memorySize` goes back to its reset value with it (DESIGN
CHOICE, entry 7). -/
def State.failLoad (s : State) (c : FatalClass) (d : Diagnostic) : State :=
  ({ s with memorySize := 0, mem := [], program := [], inPort := .released,
            loader := LoaderState.initial } : State).takeFatal c d

/-- A FormatError with its detail. -/
def State.failFormat (s : State) (defect : FormatDefect) : State :=
  s.failLoad .formatError (.formatError defect)

/-- A state after a load with this outcome: R119, R120, or a refusal (R114, R117). -/
def State.afterLoad (s : State) (o : LoadOutcome) : Host.Outcome State Fault Refusal :=
  match o with
  | .ok memorySize program => .next (s.enterRun memorySize program)
  | .fail c d => .next (s.failLoad c d)
  | .refuse r => .refused r

/-! ## The Loader as one function, R118 -/

/-- The records at `n` consecutive 25-byte strides from the front of `bytes`. -/
def recordsOf : Nat → List Byte → List Record
  | 0, _ => []
  | n + 1, bytes => recordOfBytes (bytes.take recordBytes) :: recordsOf n (bytes.drop recordBytes)

/-- `Load(Bytes(B))` of R118, in its order of tests. -/
def loadBytes (cfg : Config) (b : List Byte) : LoadOutcome :=
  if b.length < magicBytes then .fail .formatError (.formatError .truncatedHeader)
  else if b.take magicBytes ≠ magic then .fail .formatError (.formatError .badMagic)
  else if b.length < headerBytes then .fail .formatError (.formatError .truncatedHeader)
  else
    let ms := leSize ((b.drop magicBytes).take 4)
    if ms = 0 then .fail .formatError (.formatError .zeroMemorySize)
    else if cfg.memCapacity < ms.toNat then .refuse .memCapacityExceeded
    else if (b.length - headerBytes) % recordBytes ≠ 0 then
      .fail .formatError (.formatError .truncatedRecord)
    else
      let n := (b.length - headerBytes) / recordBytes
      if cfg.progCapacity < n then .refuse .progCapacityExceeded
      else .ok ms (recordsOf n (b.drop headerBytes))

/-- `Load` of R118. -/
def loadInput (cfg : Config) : Input → LoadOutcome
  | .unavailable => .fail .fileError .fileError
  | .bytes b => loadBytes cfg b

/-! ## The streaming deserializer, R121 -/

/-- One more byte received in the field or record now being read. -/
def State.keepByte (s : State) (b : Byte) : State :=
  { s with loader := { consumed := s.loader.consumed + 1, buffer := s.loader.buffer ++ [b] } }

/-- The field or record now being read is complete: its bytes have been taken. -/
def State.clearBuffer (s : State) : State :=
  { s with loader := { s.loader with buffer := [] } }

/-- The third byte is in: compare the magic (R112). -/
def finishMagic (s : State) : Host.Outcome State Fault Refusal :=
  if s.loader.buffer = magic then .next s.clearBuffer else .next (s.failFormat .badMagic)

/-- The seventh byte is in: test `memorySize` and allocate (R113, R114; D21). -/
def finishSize (s : State) : Host.Outcome State Fault Refusal :=
  let ms := leSize s.loader.buffer
  if ms = 0 then .next (s.failFormat .zeroMemorySize)
  else if s.cfg.memCapacity < ms.toNat then .refused .memCapacityExceeded
  else .next { s.clearBuffer with memorySize := ms, mem := [] }

/-- The 25th byte of a record is in: append it (R115, R116 case (c)). -/
def finishRecord (s : State) : Host.Outcome State Fault Refusal :=
  .next { s.clearBuffer with program := s.program ++ [recordOfBytes s.loader.buffer] }

/-- What follows when a byte has been kept. -/
def afterByte (s : State) : Host.Outcome State Fault Refusal :=
  if s.loader.consumed = magicBytes then finishMagic s
  else if s.loader.consumed = headerBytes then finishSize s
  else if headerBytes < s.loader.consumed ∧ s.loader.buffer.length = recordBytes then finishRecord s
  else .next s

/-- End-of-stream: R112, R113, R116, R117, R119. -/
def endOfStream (s : State) : Host.Outcome State Fault Refusal :=
  if s.loader.consumed < headerBytes then .next (s.failFormat .truncatedHeader)
  else if s.loader.buffer ≠ [] then .next (s.failFormat .truncatedRecord)
  else if s.cfg.progCapacity < s.program.length then .refused .progCapacityExceeded
  else .next (s.enterRun s.memorySize s.program)

/-- One IN transaction of phase LOAD: Unavailable at the start is FileError (R123); a port that stops in
mid-stream, or that is already released, is refused (U10). -/
def loadStep (s : State) : Host.Outcome State Fault Refusal :=
  match s.inPort with
  | .released => .refused .inputLost
  | .opened .unavailable =>
    if s.loader.consumed = 0 then .next (s.failLoad .fileError .fileError)
    else .refused .inputLost
  | .opened (.bytes []) => endOfStream s
  | .opened (.bytes (b :: rest)) =>
    afterByte (({ s with inPort := .opened (.bytes rest) } : State).keepByte b)

end Sys2Proof.Machine
end

