-- ==== Sys2Proof/Machine/Fetch.lean ====
section
/-! DEFINITION. One step of the Executor, and the placing of a program that holds one record. -/

namespace Sys2Proof.Machine

/-- `Step` of R146, which requires phase RUN: fetch, decode, execute; past the end, normal termination
(R143); an unassigned opcode byte, R147. -/
def runStep (s : State) : Host.Outcome State Fault Refusal :=
  match s.fetch with
  | none => .next s.haltNormally
  | some r =>
    match decodeRecord s.cfg.opcodeMap r with
    | .ok i => exec i s
    | .error _ => .next (s.unknownOpcode r.opcode)

/-- The Program becomes the one record of these bytes, as a successful load leaves it: `ip` 0, IN released,
phase RUN (R119). A Memory that does not exist yet is given MEM_CAPACITY cells, since every loaded
program has one (DESIGN CHOICE, entry 21). -/
def placeRecord (s : State) (bytes : List Byte) : State :=
  { s with
    program := [recordOfBytes bytes], ip := 0, phase := .run, inPort := .released,
    loader := LoaderState.initial,
    memorySize := if s.memorySize = 0 then BitVec.ofNat 32 s.cfg.memCapacity else s.memorySize }

end Sys2Proof.Machine
end

