-- ==== Sys2Proof/Machine/Ports.lean ====
section
/-! DEFINITION. The boundary with the host (46_host_interface.md): what it does to the engine (input,
reset) and what it observes (OUT, DIAG, DELAY, STATUS). None of it is a step of the engine. -/

namespace Sys2Proof.Machine

/-- Reset by the host, in any phase: the start of a new run with this input, under the same parameters
(R330, R259; D20). Nothing else survives. -/
def State.hostReset (s : State) (input : Input) : State :=
  { State.reset with cfg := s.cfg, inPort := .opened input }

/-- The bytes of an event on the OUT port. -/
def Event.outByte : Event → Option Byte
  | .out c => some c
  | .sleep _ => none
  | .diag _ => none

/-- The diagnostic of an event on the DIAG port. -/
def Event.diagnostic : Event → Option Diagnostic
  | .out _ => none
  | .sleep _ => none
  | .diag d => some d

/-- The request of an event on the DELAY port. -/
def Event.delay : Event → Option Word
  | .out _ => none
  | .sleep d => some d
  | .diag _ => none

/-- The sequence of bytes on OUT, R232. -/
def State.outPort (s : State) : List Byte := s.trace.filterMap Event.outByte

/-- The sequence of diagnostics on DIAG, R232. -/
def State.diagPort (s : State) : List Diagnostic := s.trace.filterMap Event.diagnostic

/-- The sequence of requests on DELAY, R253. -/
def State.delayPort (s : State) : List Word := s.trace.filterMap Event.delay

/-- STATUS, R258: `phase` at any time, `status` once `phase = HALT`. -/
def State.statusPort (s : State) : Phase × Option Nat :=
  (s.phase, if s.phase = .halt then some s.status else none)

/-- The length the host is asked for, in milliseconds: `max(d, 0)` (R234). How long the delay really is
stays open (U1) and nothing reads it. -/
def delayMilliseconds (d : Word) : Nat := d.toInt.toNat

/-- What the host observes of a run so far, R260: the events in their order, and STATUS. -/
structure Observation where
  events : List Event
  status : Phase × Option Nat
deriving DecidableEq, Repr

/-- The observation of a state, R260. -/
def State.observe (s : State) : Observation := { events := s.trace, status := s.statusPort }

end Sys2Proof.Machine
end

