-- ==== Sys2Proof/Machine/Step.lean ====
section
/-! DEFINITION. The step of the engine. -/

namespace Sys2Proof.Machine

/-- One step: in LOAD one IN transaction, in RUN one instruction, in HALT nothing, since "After `HALT`
nothing alters any state until reset" (R33; DESIGN CHOICE, entry 8). -/
def step (s : State) : Host.Outcome State Fault Refusal :=
  match s.phase with
  | .load => loadStep s
  | .run => runStep s
  | .halt => .next s

/-- The state whose very next step fetches and runs the instruction with these bits, numbered as
spec/opcode_table.json numbers them (R85): a program of that one record, placed as a load places it. -/
def State.withFetchWord (s : State) (nbits w : Nat) : State :=
  placeRecord s (bytesOfTableWord nbits w)

end Sys2Proof.Machine
end

