-- ==== Sys2Proof/Safety.lean ====
section
/-! DEFINITION. What claims call a sound state, a memory that is in order, and a run that is over. -/

namespace Sys2Proof.Machine

/-- R335: "A run has ended exactly when `phase = HALT`". -/
abbrev State.ended (s : State) : Prop := s.phase = .halt

/-- R335 (b): ended by normal termination. -/
abbrev State.endedNormally (s : State) : Prop := s.ended ∧ s.status = 0

/-- Both overflow parameters at `wrap`, the defaults of R7: no step of such a state is a model fault. -/
abbrev State.wraps (s : State) : Prop := s.cfg.arithOverflow = .wrap ∧ s.cfg.divOverflow = .wrap

/-- The Loader's bookkeeping, R121: how the count, the buffer and the Program hang together. -/
structure LoaderInv (s : State) : Prop where
  /-- R31: up to 24 bytes of a partly received record. -/
  bufferShort : s.loader.buffer.length < recordBytes
  /-- Before the third byte the buffer holds the magic so far. -/
  inMagic : s.loader.consumed < magicBytes → s.loader.buffer.length = s.loader.consumed
  /-- Then the size so far. -/
  inSize : magicBytes ≤ s.loader.consumed → s.loader.consumed < headerBytes →
    s.loader.buffer.length = s.loader.consumed - magicBytes
  /-- Then whole records are in the Program and the rest in the buffer (R116). -/
  inRecords : headerBytes ≤ s.loader.consumed →
    s.loader.consumed = headerBytes + recordBytes * s.program.length + s.loader.buffer.length
  /-- Nothing is built before the header is accepted (R114). -/
  headerFirst : s.loader.consumed < headerBytes → s.memorySize = 0 ∧ s.program = []
  /-- An accepted header has a nonzero size (R113). -/
  sizeNonzero : headerBytes ≤ s.loader.consumed → s.memorySize ≠ 0

/-- The sound states. Every reset has it and every step keeps it. -/
structure State.Inv (s : State) : Prop where
  /-- R7: the parameters are legal. -/
  cfgLegal : s.cfg.wf
  /-- Memory is in canonical form. -/
  memCanonical : s.mem.wf
  /-- R28: no cell outside `[0, memorySize)` holds anything. -/
  memInside : ∀ c ∈ s.mem, c.1 < s.memorySize.toNat
  /-- R114: `memorySize` is within MEM_CAPACITY. -/
  memFits : s.memorySize.toNat ≤ s.cfg.memCapacity
  /-- R22 and R25: `instructionCount` is within PROG_CAPACITY once loading is over. -/
  progFits : s.phase ≠ .load → s.program.length ≤ s.cfg.progCapacity
  /-- R23: "The only values `ip` can take are 0 to `instructionCount + 1`". -/
  ipBound : s.ip.toNat ≤ s.instructionCount + 1
  /-- R27: `status` is 0 before HALT. -/
  statusZero : s.phase ≠ .halt → s.status = 0
  /-- R27, R335: at HALT `status` is 0 or the code of a fatal class. -/
  statusAtEnd : s.phase = .halt → s.status = 0 ∨ ∃ c, s.status = s.cfg.statusCodes.code c
  /-- R120, R332: nothing has been executed in phase LOAD. -/
  loadFresh : s.phase = .load → s.ip = 0 ∧ s.trace = [] ∧ s.mem = [] ∧ s.inPort ≠ .released
  /-- R31, R121: the Loader's working state in phase LOAD. -/
  loadSound : s.phase = .load → LoaderInv s
  /-- R31, R254: after LOAD the port is released and no working state is left. -/
  loadOver : s.phase ≠ .load → s.inPort = .released ∧ s.loader = LoaderState.initial
  /-- R24: a running engine has at least one cell. -/
  runMemory : s.phase = .run → s.memorySize ≠ 0

end Sys2Proof.Machine
end

