-- ==== Sys2Proof/Certificates/Slice0/Obligations.lean ====
section
/-! DEFINITION. The statements for the provers. The helpers of `Sys2Proof.Spec` write out, in the spec's own
terms, what a statement says of the state after; they call none of the operations they are about. -/

namespace Sys2Proof.Spec

open Sys2Proof Sys2Proof.Machine

/-- `wrap64` of R9 on integers: `to_s64(z mod 2^64)`. -/
def wrapInt (z : Int) : Int :=
  if z % 2 ^ 64 < 2 ^ 63 then z % 2 ^ 64 else z % 2 ^ 64 - 2 ^ 64

/-- `tdiv` of R204: `sign(a) * sign(b) * floor(|a| / |b|)`. -/
def truncatedQuotient (a b : Int) : Int := a.sign * b.sign * ((a.natAbs / b.natAbs : Nat) : Int)

/-- The i64 range of R8. -/
def inInt64 (z : Int) : Prop := -2 ^ 63 ≤ z ∧ z ≤ 2 ^ 63 - 1

/-- The signed value of the cell an operand names. -/
def cell (s : State) (a : Word) : Int := (s.readCell a.toNat).toInt

/-- `t` is `s` after one write of cell `d`, the whole cell, and the default advance: cell `d` holds `v`,
every other cell reads as before, and no other field but `ip` has changed. -/
def WritesOnly (s t : State) (d : Nat) (v : Word) : Prop :=
  t.readCell d = v ∧ (∀ a, a ≠ d → t.readCell a = s.readCell a) ∧
  t = { s with mem := t.mem, ip := s.ip + 1 }

/-- The halt of R284: one diagnostic, `status`, HALT, and nothing else changed. -/
def addressHalt (s : State) (kind : AddressKind) (v : Word) : State :=
  { s with trace := s.trace ++ [.diag (.addressError s.ip kind v)],
           status := s.cfg.statusCodes.addressError, phase := .halt }

/-- R144 for one operation: under every map with distinct bytes, its byte selects it, and the three
operands are the record's. -/
def Selected (code : OpcodeMap → Byte) (operation : Word → Word → Word → Instr) : Prop :=
  ∀ map : OpcodeMap, map.wf → ∀ a b c : Word,
    decodeRecord map { opcode := code map, op1 := a, op2 := b, op3 := c } = .ok (operation a b c)

/-- An outcome with its next state replaced. -/
def mapNext (f : State → State) : Answer → Answer
  | .next t => .next (f t)
  | .fault r => .fault r
  | .refused r => .refused r

/-- A running engine whose Program is these instructions under this map. -/
def underMap (s : State) (map : OpcodeMap) (is : List Instr) : State :=
  { s with cfg := { s.cfg with opcodeMap := map }, program := is.map (recordOfInstr map) }

/-- The steps that take a whole load to its end: one for each byte and one for the end-of-stream, or the one
Unavailable. A load that fails early has used fewer IN transactions; its other steps are in phase HALT. -/
def loadTime : Input → Nat
  | .unavailable => 1
  | .bytes b => b.length + 1

/-- The header's size field, offsets 3 to 6 little-endian (R113). -/
def headerSize (b : List Byte) : Nat :=
  (b.getD 3 0).toNat + 2 ^ 8 * (b.getD 4 0).toNat + 2 ^ 16 * (b.getD 5 0).toNat +
    2 ^ 24 * (b.getD 6 0).toNat

/-- The outcome of a stream with this defect. -/
def rejected (d : FormatDefect) : LoadOutcome := .fail .formatError (.formatError d)

/-- The first of these operands that `Check` rejects. -/
def firstRejected (s : State) (operands : List Word) : Option Word :=
  operands.find? (fun a => !decide (s.inRange a))

end Sys2Proof.Spec

open Sys2Proof Sys2Proof.Machine Sys2Proof.Spec

/-! ## Encoding -/

/-- R93 and R84: decoding an instruction's 25 bytes gives it back, for every map with distinct bytes,
every operation and every operand. -/
def Obligations.DecodeInvertsEncode : Prop :=
  ∀ (map : OpcodeMap) (i : Instr), map.wf → i.wf = true → decode map (encode map i) = .ok i

/-- R84: no bit of a record is dropped. Whatever the map, bytes that decode to an instruction are the
bytes of that instruction. -/
def Obligations.EncodeInvertsDecode : Prop :=
  ∀ (map : OpcodeMap) (bytes : List Byte) (i : Instr),
    decode map bytes = .ok i → encode map i = bytes

/-- R144 and R89: decoding a record is total, looks at the opcode byte only, and gives the operation whose
byte it is, or none exactly when the byte is unassigned. -/
def Obligations.OpcodeByteAloneSelects : Prop :=
  ∀ (map : OpcodeMap) (r : Record), map.wf →
    (∀ m, map.code m = r.opcode → decodeRecord map r = .ok (Instr.make m r.op1 r.op2 r.op3)) ∧
    ((∀ m, map.code m ≠ r.opcode) → decodeRecord map r = .error (.unknownOpcode r.opcode))

/-- R85: the fields of a record as bit slices of the 200-bit word. -/
def Obligations.RecordFieldsAreBitSlices : Prop :=
  ∀ w : Nat, w < 2 ^ 200 →
    recordOfBytes (bytesOfTableWord 200 w) =
      { opcode := BitVec.ofNat 8 w, op1 := BitVec.ofNat 64 (w / 2 ^ 8),
        op2 := BitVec.ofNat 64 (w / 2 ^ 72), op3 := BitVec.ofNat 64 (w / 2 ^ 136) }

/-- Vectors E3, E4, E7 and E10 of 95_test_vectors.md, as words of R85. It rests on the default OPCODE_MAP,
the spec's own choice D1 (entry 1). -/
def Obligations.SampleWordsDecode : Prop :=
  decodeTableWord 200 0x0000000000000000FFFFFFFFFFFFFFFF000000000000000101 = some (.set 1 (-1) 0) ∧
  decodeTableWord 200 0x00000000000000020000000000000000000000000000000306 = some (.add 3 0 2) ∧
  decodeTableWord 200 0x00000000000000008000000000000000000000000000000001 =
    some (.set 0 (BitVec.ofInt 64 (-9223372036854775808)) 0) ∧
  decodeTableWord 200 0x000000000000000300000000000000020000000000000001FF = none

/-- R93 and R118: the container of a header and records loads to that header and those records, wherever
the capacities admit it. The magic's bytes are the spec's presumption G1 (entry 22). -/
def Obligations.ContainerLoads : Prop :=
  ∀ (cfg : Config) (c : Container), c.wf → c.memorySize.toNat ≤ cfg.memCapacity →
    c.program.length ≤ cfg.progCapacity →
    loadBytes cfg (encodeContainer c) = .ok c.memorySize c.program

/-! ## The Loader -/

/-- R121: the engine, given one step for each byte of the input and one for end-of-stream (one in all for
Unavailable), comes from the start of a load to exactly the outcome that R118's function of the whole input
gives, every field of the state included. Three choices of the model are in it: a step of phase LOAD is one IN
transaction (entry 6); where the load fails early the remaining steps are steps of phase HALT, which leave the
halted state as it is (entry 8); and a failed load leaves `memorySize` 0 (entry 7). -/
def Obligations.StreamingLoadIsTheLoadFunction : Prop :=
  ∀ (s : State) (input : Input), s.phase = .load → s.loader = LoaderState.initial → s.program = [] →
    s.inPort = .opened input →
    Host.Core.run Sys2Proof.core (loadTime input) s = s.afterLoad (loadInput s.cfg input)

/-- R112 to R117: an accepted stream has the magic, a nonzero little-endian size and whole records, and
record `i` of the Program is the one at offset `7 + 25*i`. The magic's bytes are the spec's presumption G1
(entry 22). -/
def Obligations.AcceptedStreamIsWellFormed : Prop :=
  ∀ (cfg : Config) (b : List Byte) (n : Size) (p : List Record), loadBytes cfg b = .ok n p →
    b.take 3 = [0x4F, 0x52, 0x43] ∧
    n.toNat = (b.getD 3 0).toNat + 256 * (b.getD 4 0).toNat + 65536 * (b.getD 5 0).toNat +
      16777216 * (b.getD 6 0).toNat ∧
    n ≠ 0 ∧ b.length = 7 + 25 * p.length ∧
    ∀ i, i < p.length → p[i]? = some (recordOfBytes ((b.drop (7 + 25 * i)).take 25))

/-- R112, R113, R116 (b), R121: a stream that is malformed FAILS, with FormatError, and the earliest defect in
stream order is the one reported. The two refusals of R114 and R117 stand in their places of R118's order, so the
clauses cover every stream that is not accepted. The names of the defects and the order are the spec's own choice
D22 (entry 29), the refusals its D4 (entry 11), the magic's bytes its presumption G1 (entry 22). -/
def Obligations.MalformedStreamsFail : Prop :=
  ∀ (cfg : Config) (b : List Byte),
    (b.length < 3 → loadBytes cfg b = rejected .truncatedHeader) ∧
    (3 ≤ b.length → b.take 3 ≠ [0x4F, 0x52, 0x43] → loadBytes cfg b = rejected .badMagic) ∧
    (3 ≤ b.length → b.take 3 = [0x4F, 0x52, 0x43] → b.length < 7 →
      loadBytes cfg b = rejected .truncatedHeader) ∧
    (7 ≤ b.length → b.take 3 = [0x4F, 0x52, 0x43] → headerSize b = 0 →
      loadBytes cfg b = rejected .zeroMemorySize) ∧
    (7 ≤ b.length → b.take 3 = [0x4F, 0x52, 0x43] → cfg.memCapacity < headerSize b →
      loadBytes cfg b = .refuse .memCapacityExceeded) ∧
    (7 ≤ b.length → b.take 3 = [0x4F, 0x52, 0x43] → headerSize b ≠ 0 →
      headerSize b ≤ cfg.memCapacity → (b.length - 7) % 25 ≠ 0 →
      loadBytes cfg b = rejected .truncatedRecord) ∧
    (7 ≤ b.length → b.take 3 = [0x4F, 0x52, 0x43] → headerSize b ≠ 0 →
      headerSize b ≤ cfg.memCapacity → (b.length - 7) % 25 = 0 →
      cfg.progCapacity < (b.length - 7) / 25 → loadBytes cfg b = .refuse .progCapacityExceeded)

/-- R120, R123: an input that is Unavailable is a FileError: one diagnostic, IN released, `status`, HALT, with
nothing built and nothing executed. -/
def Obligations.UnavailableInputIsFileError : Prop :=
  ∀ s : State, s.phase = .load → s.inPort = .opened .unavailable → s.loader.consumed = 0 →
    ∃ t, step s = .next t ∧ t.phase = .halt ∧ t.status = s.cfg.statusCodes.fileError ∧
      t.trace = s.trace ++ [.diag .fileError] ∧ t.inPort = .released ∧ t.program = [] ∧ t.ip = s.ip ∧
      t.cfg = s.cfg

/-- R120: a load that fails emits exactly one diagnostic, of class FileError or FormatError, with that class's
status, and nothing has been executed. From a sound state. -/
def Obligations.LoadFailureEndsTheRun : Prop :=
  ∀ s t : State, s.Inv → s.phase = .load → step s = .next t → t.phase = .halt →
    t.inPort = .released ∧ t.ip = 0 ∧ t.program = [] ∧ t.status ≠ 0 ∧
    ((t.trace = [.diag .fileError] ∧ t.status = s.cfg.statusCodes.fileError) ∨
     ∃ f, t.trace = [.diag (.formatError f)] ∧ t.status = s.cfg.statusCodes.formatError)

/-- R119, R331, R52: a load that succeeds leaves `ip` 0, every cell 0, at least one cell, no event, `status` 0
and IN released. From a sound state. -/
def Obligations.LoadSuccessStartsTheRun : Prop :=
  ∀ s t : State, s.Inv → s.phase = .load → step s = .next t → t.phase = .run →
    t.ip = 0 ∧ (∀ a, t.readCell a = 0) ∧ t.memorySize ≠ 0 ∧ t.trace = [] ∧ t.status = 0 ∧
    t.inPort = .released ∧ t.program = s.program

/-! ## The step -/

/-- R140, R141, R144: in phase RUN, where the record at `ip` decodes to `i`, the step is `exec i`, which
includes the `ip` update of R142. -/
def Obligations.StepRunsTheDecodedInstruction : Prop :=
  ∀ (s : State) (r : Record) (i : Instr), s.phase = .run → s.program[s.ip.toNat]? = some r →
    decodeRecord s.cfg.opcodeMap r = .ok i → i.wf = true → step s = exec i s

/-- R143: at the end of the Program the run ends with `status` 0 and no event; Memory and `ip` keep
their values. -/
def Obligations.FetchPastTheEndHaltsNormally : Prop :=
  ∀ s : State, s.phase = .run → s.program.length ≤ s.ip.toNat →
    step s = .next { s with status := 0, phase := .halt }

/-- R147: a record with an unassigned byte emits its diagnostic and is stepped over, whatever its
operands. One diagnostic at each execution is the spec's own choice D18 (entry 27). -/
def Obligations.UnknownOpcodeIsSteppedOver : Prop :=
  ∀ (s : State) (r : Record), s.phase = .run → s.program[s.ip.toNat]? = some r →
    (∀ m, s.cfg.opcodeMap.code m ≠ r.opcode) →
    step s = .next { s with trace := s.trace ++ [.diag (.unknownOpcodeError s.ip r.opcode)],
                            ip := s.ip + 1 }

/-- R33: nothing alters any state after HALT. That such a step answers the same state, and not a fault, is
the model's choice (entry 8). -/
def Obligations.HaltedEngineStaysPut : Prop :=
  ∀ s : State, s.phase = .halt → step s = .next s

/-! ## Reset -/

/-- R34: what reset leaves, for the items to which the spec gives a value. Reset as a notion is the spec's own
choice D20 (entry 24). -/
def Obligations.ResetValues : Prop :=
  State.reset.phase = .load ∧ State.reset.status = 0 ∧ State.reset.ip = 0 ∧
  State.reset.instructionCount = 0 ∧ State.reset.program = [] ∧ State.reset.trace = [] ∧
  State.reset.mem = [] ∧ State.reset.loader.consumed = 0 ∧ State.reset.loader.buffer = []

/-- The state after reset is sound. -/
def Obligations.ResetIsSound : Prop := State.reset.Inv

/-- R330 and R259: a reset by the host, in any phase, gives a sound state at the start of a load, and nothing
of the old run but the parameters is left. Reset as a notion is the spec's own choice D20, that it keeps the
parameters the model's (entry 24). -/
def Obligations.HostResetStartsAnew : Prop :=
  ∀ (s : State) (input : Input), s.cfg.wf →
    (s.hostReset input).Inv ∧ (s.hostReset input).phase = .load ∧
    (s.hostReset input).inPort = .opened input ∧
    ∀ u : State, u.cfg = s.cfg → u.hostReset input = s.hostReset input

/-- The sound states are kept by every step, in every phase. -/
def Obligations.StepKeepsSoundness : Prop :=
  ∀ s t : State, s.Inv → step s = .next t → t.Inv

/-! ## The instructions: effect, frame, errors -/

/-- R145. -/
def Obligations.NopOnlyAdvances : Prop :=
  Selected OpcodeMap.nop Instr.nop ∧
  ∀ (op1 op2 op3 : Word) (s : State),
    exec (.nop op1 op2 op3) s = .next { s with ip := s.ip + 1 }

/-- R161. The state an AddressError leaves is the spec's own choice D12 (entry 16). -/
def Obligations.SetWritesTheImmediate : Prop :=
  Selected OpcodeMap.set Instr.set ∧
  ∀ (op1 op2 op3 : Word) (s : State),
    (s.inRange op1 →
      ∃ t, exec (.set op1 op2 op3) s = .next t ∧ WritesOnly s t op1.toNat op2) ∧
    (¬ s.inRange op1 → exec (.set op1 op2 op3) s = .next (addressHalt s .memIndex op1))

/-- R163. The order of the three checks is the spec's own choice D6 (entry 15), the state an AddressError leaves
its D12 (entry 16). -/
def Obligations.LoadReadsThroughThePointer : Prop :=
  Selected OpcodeMap.load Instr.load ∧
  ∀ (op1 op2 op3 : Word) (s : State),
    (s.inRange op1 → s.inRange op2 → s.inRange (s.readCell op2.toNat) →
      ∃ t, exec (.load op1 op2 op3) s = .next t ∧
        WritesOnly s t op1.toNat (s.readCell (s.readCell op2.toNat).toNat)) ∧
    (¬ s.inRange op1 → exec (.load op1 op2 op3) s = .next (addressHalt s .memIndex op1)) ∧
    (s.inRange op1 → ¬ s.inRange op2 →
      exec (.load op1 op2 op3) s = .next (addressHalt s .memIndex op2)) ∧
    (s.inRange op1 → s.inRange op2 → ¬ s.inRange (s.readCell op2.toNat) →
      exec (.load op1 op2 op3) s = .next (addressHalt s .memIndex (s.readCell op2.toNat)))

/-- R166. The order of the three checks is the spec's own choice D6 (entry 15), the state an AddressError leaves
its D12 (entry 16). -/
def Obligations.StoreWritesThroughThePointer : Prop :=
  Selected OpcodeMap.store Instr.store ∧
  ∀ (op1 op2 op3 : Word) (s : State),
    (s.inRange op1 → s.inRange op2 → s.inRange (s.readCell op1.toNat) →
      ∃ t, exec (.store op1 op2 op3) s = .next t ∧
        WritesOnly s t (s.readCell op1.toNat).toNat (s.readCell op2.toNat)) ∧
    (¬ s.inRange op1 → exec (.store op1 op2 op3) s = .next (addressHalt s .memIndex op1)) ∧
    (s.inRange op1 → ¬ s.inRange op2 →
      exec (.store op1 op2 op3) s = .next (addressHalt s .memIndex op2)) ∧
    (s.inRange op1 → s.inRange op2 → ¬ s.inRange (s.readCell op1.toNat) →
      exec (.store op1 op2 op3) s = .next (addressHalt s .memIndex (s.readCell op1.toNat)))

/-- R181: the target is the cell's value, not one less; the range test is signed and on the whole value;
`instructionCount` itself is out of range. -/
def Obligations.JmpGoesToTheCellsValue : Prop :=
  Selected OpcodeMap.jmp Instr.jmp ∧
  ∀ (op1 op2 op3 : Word) (s : State),
    (s.inRange op1 → 0 ≤ cell s op1 → cell s op1 < (s.program.length : Int) →
      exec (.jmp op1 op2 op3) s = .next { s with ip := s.readCell op1.toNat }) ∧
    (s.inRange op1 → ¬ (0 ≤ cell s op1 ∧ cell s op1 < (s.program.length : Int)) →
      exec (.jmp op1 op2 op3) s = .next (addressHalt s .jumpTarget (s.readCell op1.toNat))) ∧
    (¬ s.inRange op1 → exec (.jmp op1 op2 op3) s = .next (addressHalt s .memIndex op1))

/-- R184: signed and strict; exactly one instruction is skipped. The state an AddressError leaves is the spec's
own choice D12 (entry 16). -/
def Obligations.SgzSkipsOneIfPositive : Prop :=
  Selected OpcodeMap.sgz Instr.sgz ∧
  ∀ (op1 op2 op3 : Word) (s : State),
    (s.inRange op1 → 0 < cell s op1 →
      exec (.sgz op1 op2 op3) s = .next { s with ip := s.ip + 2 }) ∧
    (s.inRange op1 → cell s op1 ≤ 0 →
      exec (.sgz op1 op2 op3) s = .next { s with ip := s.ip + 1 }) ∧
    (¬ s.inRange op1 → exec (.sgz op1 op2 op3) s = .next (addressHalt s .memIndex op1))

/-- R202 and R210, for both settings of ARITH_OVERFLOW. That a sum outside the i64 range wraps under `wrap` is
the spec's own choice D7 (entry 12). -/
def Obligations.AddWritesTheWrappedSum : Prop :=
  Selected OpcodeMap.add Instr.add ∧
  ∀ (op1 op2 op3 : Word) (s : State), s.inRange op1 → s.inRange op2 → s.inRange op3 →
    (s.cfg.arithOverflow = .wrap ∨ inInt64 (cell s op2 + cell s op3) →
      ∃ t v, exec (.add op1 op2 op3) s = .next t ∧ WritesOnly s t op1.toNat v ∧
        v.toInt = wrapInt (cell s op2 + cell s op3)) ∧
    (s.cfg.arithOverflow = .fault → ¬ inInt64 (cell s op2 + cell s op3) →
      exec (.add op1 op2 op3) s = .fault (.arithOverflow s.ip))

/-- R203 and R210, for both settings of ARITH_OVERFLOW. That a product outside the i64 range wraps under `wrap`
is the spec's own choice D7 (entry 12). -/
def Obligations.MulWritesTheWrappedProduct : Prop :=
  Selected OpcodeMap.mul Instr.mul ∧
  ∀ (op1 op2 op3 : Word) (s : State), s.inRange op1 → s.inRange op2 → s.inRange op3 →
    (s.cfg.arithOverflow = .wrap ∨ inInt64 (cell s op2 * cell s op3) →
      ∃ t v, exec (.mul op1 op2 op3) s = .next t ∧ WritesOnly s t op1.toNat v ∧
        v.toInt = wrapInt (cell s op2 * cell s op3)) ∧
    (s.cfg.arithOverflow = .fault → ¬ inInt64 (cell s op2 * cell s op3) →
      exec (.mul op1 op2 op3) s = .fault (.arithOverflow s.ip))

/-- R204, R209, R210, for both settings of DIV_OVERFLOW. The rounding toward zero is the spec's own choice D8
(entry 14), the wrapped INT64_MIN / -1 its D9 (entry 13). -/
def Obligations.DivWritesTheTruncatedQuotient : Prop :=
  Selected OpcodeMap.div Instr.div ∧
  ∀ (op1 op2 op3 : Word) (s : State), s.inRange op1 → s.inRange op2 → s.inRange op3 →
    cell s op3 ≠ 0 →
    (s.cfg.divOverflow = .wrap ∨ ¬ (cell s op2 = -2 ^ 63 ∧ cell s op3 = -1) →
      ∃ t v, exec (.div op1 op2 op3) s = .next t ∧ WritesOnly s t op1.toNat v ∧
        v.toInt = wrapInt (truncatedQuotient (cell s op2) (cell s op3))) ∧
    (s.cfg.divOverflow = .fault → cell s op2 = -2 ^ 63 → cell s op3 = -1 →
      exec (.div op1 op2 op3) s = .fault (.arithOverflow s.ip))

/-- R205, R209, R210, for both settings of DIV_OVERFLOW. The sign of the remainder is the spec's own choice D8
(entry 14), the case INT64_MIN mod -1 its D9 (entry 13). -/
def Obligations.ModWritesTheRemainder : Prop :=
  Selected OpcodeMap.mod Instr.mod ∧
  ∀ (op1 op2 op3 : Word) (s : State), s.inRange op1 → s.inRange op2 → s.inRange op3 →
    cell s op3 ≠ 0 →
    (s.cfg.divOverflow = .wrap ∨ ¬ (cell s op2 = -2 ^ 63 ∧ cell s op3 = -1) →
      ∃ t v, exec (.mod op1 op2 op3) s = .next t ∧ WritesOnly s t op1.toNat v ∧
        v.toInt = cell s op2 - truncatedQuotient (cell s op2) (cell s op3) * cell s op3) ∧
    (s.cfg.divOverflow = .fault → cell s op2 = -2 ^ 63 → cell s op3 = -1 →
      exec (.mod op1 op2 op3) s = .fault (.arithOverflow s.ip))

/-- R206: a zero divisor is one diagnostic, no write, and the next instruction, for DIV and for MOD, whatever
the dividend and the overflow setting. -/
def Obligations.ZeroDivisorIsRecoverable : Prop :=
  ∀ (op1 op2 op3 : Word) (s : State), s.inRange op1 → s.inRange op2 → s.inRange op3 →
    cell s op3 = 0 →
    exec (.div op1 op2 op3) s =
      .next { s with trace := s.trace ++ [.diag (.arithmeticError s.ip .div)], ip := s.ip + 1 } ∧
    exec (.mod op1 op2 op3) s =
      .next { s with trace := s.trace ++ [.diag (.arithmeticError s.ip .mod)], ip := s.ip + 1 }

/-- R231: one byte, the cell modulo 256 in [0, 255]. That a value outside 0 to 255 gives this byte is the spec's
own choice D16 (entry 19), the state an AddressError leaves its D12 (entry 16). -/
def Obligations.OutEmitsTheLowByte : Prop :=
  Selected OpcodeMap.out Instr.out ∧
  ∀ (op1 op2 op3 : Word) (s : State),
    (s.inRange op1 → ∃ c : Byte, (c.toNat : Int) = cell s op1 % 256 ∧
      exec (.out op1 op2 op3) s = .next { s with trace := s.trace ++ [.out c], ip := s.ip + 1 }) ∧
    (¬ s.inRange op1 → exec (.out op1 op2 op3) s = .next (addressHalt s .memIndex op1))

/-- R233: one request carrying the raw cell, and otherwise the advance, whatever the duration. That the model
has no time is the spec's own choice D15 (entry 18), the state an AddressError leaves its D12 (entry 16). -/
def Obligations.SleepEmitsTheRequest : Prop :=
  Selected OpcodeMap.sleep Instr.sleep ∧
  ∀ (op1 op2 op3 : Word) (s : State),
    (s.inRange op1 → exec (.sleep op1 op2 op3) s =
      .next { s with trace := s.trace ++ [.sleep (s.readCell op1.toNat)], ip := s.ip + 1 }) ∧
    (¬ s.inRange op1 → exec (.sleep op1 op2 op3) s = .next (addressHalt s .memIndex op1))

/-- R86: an ignored operand never affects execution, for every ignored operand of R87. The spec's own choice D30
(entry 23). -/
def Obligations.IgnoredOperandsHaveNoEffect : Prop :=
  ∀ (a b c x y z : Word) (s : State),
    exec (.nop a b c) s = exec (.nop x y z) s ∧
    exec (.set a b c) s = exec (.set a b z) s ∧
    exec (.load a b c) s = exec (.load a b z) s ∧
    exec (.store a b c) s = exec (.store a b z) s ∧
    exec (.jmp a b c) s = exec (.jmp a y z) s ∧
    exec (.sgz a b c) s = exec (.sgz a y z) s ∧
    exec (.out a b c) s = exec (.out a y z) s ∧
    exec (.sleep a b c) s = exec (.sleep a y z) s

/-- R283, R289, R57: the address-bearing operands are checked in operand order before anything else, so the
first that is out of range is the AddressError of the instruction, a zero divisor notwithstanding. The
order is the spec's own choice D6 and D10 (entry 15), the state left its D12 (entry 16). -/
def Obligations.FirstBadOperandIsTheError : Prop :=
  ∀ (i : Instr) (s : State) (v : Word), firstRejected s (addressOperands i) = some v →
    exec i s = .next (addressHalt s .memIndex v)

/-- R205 and R209: DIV and MOD of one pair fit together, `a = q * b + r` modulo 2^64, the remainder is smaller
than the divisor and zero or of the dividend's sign. The rounding is the spec's own choice D8 (entry 14),
INT64_MIN by -1 its D9 (entry 13). -/
def Obligations.QuotientAndRemainderFitTogether : Prop :=
  ∀ (op1 op2 op3 : Word) (s : State), s.inRange op1 → s.inRange op2 → s.inRange op3 →
    cell s op3 ≠ 0 → s.cfg.divOverflow = .wrap →
    ∃ t u, exec (.div op1 op2 op3) s = .next t ∧ exec (.mod op1 op2 op3) s = .next u ∧
      t.readCell op1.toNat * s.readCell op3.toNat + u.readCell op1.toNat = s.readCell op2.toNat ∧
      (cell u op1).natAbs < (cell s op3).natAbs ∧
      (cell u op1 = 0 ∨ (cell u op1).sign = (cell s op2).sign)

/-- R207: ADD and MUL are commutative in their source operands. -/
def Obligations.AddAndMulCommute : Prop :=
  ∀ (op1 op2 op3 : Word) (s : State), s.inRange op2 → s.inRange op3 →
    exec (.add op1 op2 op3) s = exec (.add op1 op3 op2) s ∧
    exec (.mul op1 op2 op3) s = exec (.mul op1 op3 op2) s

/-! ## Memory -/

/-- R53: `Check` lets the whole 64-bit value through exactly where, read as unsigned, it is below `memorySize`, so
a negative value and one of 2^32 or more never pass; any other value is the AddressError that names it. The full
width is the spec's own choice D6 (entry 15), the state an AddressError leaves its D12 (entry 16). -/
def Obligations.AddressTestIsFullWidth : Prop :=
  ∀ (s : State) (a : Word) (rest : Nat → Answer),
    (a.toNat < s.memorySize.toNat → checked s a rest = rest a.toNat) ∧
    (s.memorySize.toNat ≤ a.toNat → checked s a rest = .next (addressHalt s .memIndex a)) ∧
    (a.toInt < 0 ∨ 2 ^ 32 ≤ a.toNat → checked s a rest = .next (addressHalt s .memIndex a))

/-- R55: a write replaces one whole cell and nothing else, in every memory, canonical or not. -/
def Obligations.WriteReplacesOneCell : Prop :=
  ∀ (s : State) (a : Nat) (v : Word),
    (s.writeCell a v).readCell a = v ∧
    (∀ b, b ≠ a → (s.writeCell a v).readCell b = s.readCell b) ∧
    s.writeCell a v = { s with mem := (s.writeCell a v).mem }

/-- R60: an instruction changes no cell but the one the table names for it: op1, for STORE the cell its pointer
names, for NOP, JMP, SGZ, OUT and SLEEP none. -/
def Obligations.OnlyTheDestinationCellChanges : Prop :=
  ∀ (i : Instr) (s t : State), exec i s = .next t →
    ∀ a, destinationCell s i ≠ some a → t.readCell a = s.readCell a

/-! ## The whole machine -/

/-- R293: under the default `wrap` settings no instruction, on any data, ends in a fault or a refusal. -/
def Obligations.WrapSettingsNeverStop : Prop :=
  ∀ s : State, s.wraps → s.phase = .run → (∃ t, step s = .next t) ∧ ∀ i, ∃ t, exec i s = .next t

/-- R210: the one fault is an overflow, at this `ip`, of ADD or MUL under `ARITH_OVERFLOW = fault` or of DIV or
MOD under `DIV_OVERFLOW = fault`; and no instruction is refused. -/
def Obligations.OnlyOverflowFaults : Prop :=
  ∀ (i : Instr) (s : State),
    (∀ f, exec i s = .fault f → f = .arithOverflow s.ip ∧
      ((i.mnemonic = .add ∨ i.mnemonic = .mul) ∧ s.cfg.arithOverflow = .fault ∨
       (i.mnemonic = .div ∨ i.mnemonic = .mod) ∧ s.cfg.divOverflow = .fault)) ∧
    ∀ r, exec i s ≠ .refused r

/-- R284 and R291: an instruction that ends the run raises one AddressError and does nothing else: Memory, `ip`
and the earlier events are as they were. That state is the spec's own choice D12 (entry 16). -/
def Obligations.FatalErrorsArePrecise : Prop :=
  ∀ (i : Instr) (s t : State), s.phase = .run → exec i s = .next t → t.phase = .halt →
    ∃ k v, t = addressHalt s k v

/-- R59, R24, R33: a step of a loaded engine changes no parameter, no record, no `memorySize`, and nothing of the
IN port and the Loader. -/
def Obligations.ProgramIsReadOnlyAfterLoading : Prop :=
  ∀ s t : State, s.phase ≠ .load → step s = .next t →
    t.cfg = s.cfg ∧ t.program = s.program ∧ t.memorySize = s.memorySize ∧ t.inPort = s.inPort ∧
    t.loader = s.loader

/-- R30 and R255: events are only appended, and at most one in a step of any phase. One total trace is the
spec's own choice D17 (entry 20). -/
def Obligations.StepAppendsAtMostOneEvent : Prop :=
  ∀ s t : State, step s = .next t → t.trace = s.trace ∨ ∃ e, t.trace = s.trace ++ [e]

/-- R30: the engine never reads the trace: with other events before, every step answers the same but for
them. One total trace is the spec's own choice D17 (entry 20). -/
def Obligations.TraceIsNeverRead : Prop :=
  ∀ (s : State) (earlier : List Event),
    step { s with trace := earlier ++ s.trace } =
      mapNext (fun t => { t with trace := earlier ++ t.trace }) (step s)

/-- R88: all semantics are independent of OPCODE_MAP. A program of assigned instructions steps the same under any
two maps with distinct bytes, each encoding it. -/
def Obligations.OpcodeMapIsImmaterial : Prop :=
  ∀ (s : State) (map₁ map₂ : OpcodeMap) (is : List Instr), map₁.wf → map₂.wf → s.phase = .run →
    step (underMap s map₂ is) = mapNext (fun t => underMap t map₂ is) (step (underMap s map₁ is))

/-- R26: the only transitions of `phase`; none leaves HALT. The register `phase` is the spec's own choice D20
(entry 24). -/
def Obligations.PhaseTransitions : Prop :=
  ∀ s t : State, step s = .next t →
    (s.phase = .run → t.phase ≠ .load) ∧ (s.phase = .halt → t.phase = .halt) ∧
    (s.phase = .load → t.phase = .run → t.inPort = .released)

/-- R143 and R335: a running engine ends with `status` 0 exactly when the fetch finds `ip` at or past
`instructionCount`; otherwise it ends with the code of AddressError. -/
def Obligations.StatusZeroMeansTheProgramRanOut : Prop :=
  ∀ s t : State, s.cfg.wf → s.phase = .run → step s = .next t → t.phase = .halt →
    (t.status = 0 ↔ s.instructionCount ≤ s.ip.toNat) ∧
    (t.status ≠ 0 → t.status = s.cfg.statusCodes.addressError)

/-- R27 and R288: a step that goes on leaves `status` alone, a recoverable error among them. The latter is the spec's
own choice D33 (entry 30). -/
def Obligations.OnlyHaltingSetsStatus : Prop :=
  ∀ s t : State, step s = .next t → t.phase ≠ .halt → t.status = s.status

/-- R142: the `ip` update. An instruction that goes on leaves `ip + 1`, but SGZ `ip + 2` where its cell is greater
than zero, and JMP the value of its cell, an index below `instructionCount`: no JMP ends a run by going past the
end. The explicit update is the spec's own choice D5 (entry 26). -/
def Obligations.InstructionPointerUpdate : Prop :=
  ∀ (i : Instr) (s t : State), s.phase = .run → exec i s = .next t → t.phase = .run →
    (i.mnemonic ≠ .jmp → i.mnemonic ≠ .sgz → t.ip = s.ip + 1) ∧
    (∀ op1 op2 op3, i = .sgz op1 op2 op3 →
      (0 < cell s op1 → t.ip = s.ip + 2) ∧ (cell s op1 ≤ 0 → t.ip = s.ip + 1)) ∧
    (∀ op1 op2 op3, i = .jmp op1 op2 op3 →
      t.ip = s.readCell op1.toNat ∧ t.ip.toNat < s.instructionCount)

/-- R232 and R253: OUT alone puts bytes on the OUT port and SLEEP alone requests on DELAY; a diagnostic never
appears on either, and on DIAG there is nothing else. The ports are projections of one total trace, the spec's
own choice D17 (entry 20). -/
def Obligations.PortsCarryTheirOwnEvents : Prop :=
  ∀ (i : Instr) (s t : State), exec i s = .next t →
    (i.mnemonic ≠ .out → t.outPort = s.outPort) ∧
    (i.mnemonic ≠ .sleep → t.delayPort = s.delayPort) ∧
    (t.phase = s.phase → i.mnemonic ≠ .div → i.mnemonic ≠ .mod → s.phase = .run →
      t.diagPort = s.diagPort)

/-- R150: a run need not end. A JMP whose cell holds its own index runs for ever, and the engine is still in
phase RUN after any number of steps. That the engine has no step limit is the spec's own choice D29 (entry
31). -/
def Obligations.SelfJumpRunsForever : Prop :=
  ∀ (s : State) (r : Record) (op1 op2 op3 : Word), s.phase = .run →
    s.program[s.ip.toNat]? = some r →
    decodeRecord s.cfg.opcodeMap r = .ok (.jmp op1 op2 op3) → s.inRange op1 →
    s.readCell op1.toNat = s.ip → s.program.length ≤ 2 ^ 63 →
    ∀ k, Host.Core.run Sys2Proof.core k s = .next s
end

