-- ==== Sys2Proof/Laws/Decode.lean ====
section
/-! SUPPORT. Little-endian fields, record lengths, and what the opcode byte selects. -/

namespace Sys2Proof

@[simp] theorem leBytes_length (n v : Nat) : (leBytes n v).length = n := by
  induction n generalizing v with
  | zero => rfl
  | succ n ih => simp [leBytes, ih]

theorem leNat_lt (bytes : List Byte) : leNat bytes < 256 ^ bytes.length := by
  induction bytes with
  | nil => simp [leNat]
  | cons b rest ih =>
    have hb := b.isLt
    simp only [leNat, List.length_cons, pow_succ]
    omega

/-- Reading back the low bytes of a number. -/
theorem leNat_leBytes (n v : Nat) : leNat (leBytes n v) = v % 256 ^ n := by
  induction n generalizing v with
  | zero => simp [leBytes, leNat, Nat.mod_one]
  | succ n ih =>
    simp only [leBytes, leNat, ih, BitVec.toNat_ofNat]
    rw [show 256 ^ (n + 1) = 256 * 256 ^ n from Nat.pow_succ', Nat.mod_mul]

/-- Writing out the bytes of a byte sequence's value gives the sequence. -/
theorem leBytes_leNat (bytes : List Byte) : leBytes bytes.length (leNat bytes) = bytes := by
  induction bytes with
  | nil => rfl
  | cons b rest ih =>
    have hb := b.isLt
    have h1 : (b.toNat + 256 * leNat rest) / 256 = leNat rest := by omega
    have h2 : BitVec.ofNat 8 (b.toNat + 256 * leNat rest) = b := by
      apply BitVec.eq_of_toNat_eq
      rw [BitVec.toNat_ofNat]
      omega
    simp only [List.length_cons, leNat, leBytes, h1, h2, ih]

theorem leNat_append (x y : List Byte) : leNat (x ++ y) = leNat x + 256 ^ x.length * leNat y := by
  induction x with
  | nil => simp [leNat]
  | cons b rest ih =>
    simp only [List.cons_append, leNat, ih, List.length_cons, pow_succ]
    ring

/-- An operand's eight bytes read back as the operand. -/
theorem leWord_leBytes (w : Word) : leWord (leBytes 8 w.toNat) = w := by
  have h : w.toNat < 256 ^ 8 := by simpa using w.isLt
  rw [leWord, leNat_leBytes, Nat.mod_eq_of_lt h, BitVec.ofNat_toNat, BitVec.setWidth_eq]

@[simp] theorem bytesOfRecord_length (r : Record) : (bytesOfRecord r).length = recordBytes := by
  simp [bytesOfRecord, recordBytes]

@[simp] theorem encode_length (map : OpcodeMap) (i : Instr) :
    (encode map i).length = recordBytes := bytesOfRecord_length _

/-- A record's bytes read back as the record. -/
@[simp] theorem recordOfBytes_bytesOfRecord (r : Record) : recordOfBytes (bytesOfRecord r) = r := by
  have h1 : (bytesOfRecord r).drop 1 =
      leBytes 8 r.op1.toNat ++ (leBytes 8 r.op2.toNat ++ leBytes 8 r.op3.toNat) := by
    simp [bytesOfRecord]
  have h9 : (bytesOfRecord r).drop 9 = leBytes 8 r.op2.toNat ++ leBytes 8 r.op3.toNat := by
    rw [show 9 = 1 + 8 from rfl, ← List.drop_drop, h1, List.drop_left' (leBytes_length 8 _)]
  have h17 : (bytesOfRecord r).drop 17 = leBytes 8 r.op3.toNat := by
    rw [show 17 = 9 + 8 from rfl, ← List.drop_drop, h9, List.drop_left' (leBytes_length 8 _)]
  have t3 : (leBytes 8 r.op3.toNat).take 8 = leBytes 8 r.op3.toNat :=
    List.take_of_length_le (by simp)
  unfold recordOfBytes
  rw [h1, h9, h17, List.take_left' (leBytes_length 8 _), List.take_left' (leBytes_length 8 _), t3,
    leWord_leBytes, leWord_leBytes, leWord_leBytes]
  rfl

theorem Mnemonic.mem_all (m : Mnemonic) : m ∈ Mnemonic.all := by cases m <;> decide

/-- Under a legal map the byte of an operation selects that operation. -/
theorem OpcodeMap.mnemonic_code {map : OpcodeMap} (h : map.wf) (m : Mnemonic) :
    map.mnemonic (map.code m) = some m := by
  have inj : ∀ a b, map.code a = map.code b → a = b := fun a b hab =>
    List.inj_on_of_nodup_map h (Mnemonic.mem_all a) (Mnemonic.mem_all b) hab
  cases hf : map.mnemonic (map.code m) with
  | none =>
    have := List.find?_eq_none.1 hf m (Mnemonic.mem_all m)
    simp at this
  | some n =>
    have := List.find?_some hf
    rw [inj n m (by simpa using this)]

/-- What an opcode byte selects, under any map, has that byte. -/
theorem OpcodeMap.code_of_mnemonic {map : OpcodeMap} {b : Byte} {m : Mnemonic}
    (h : map.mnemonic b = some m) : map.code m = b := by
  simpa using List.find?_some h

@[simp] theorem Instr.mnemonic_make (m : Mnemonic) (a b c : Word) :
    (Instr.make m a b c).mnemonic = m := by cases m <;> rfl

@[simp] theorem Instr.operands_make (m : Mnemonic) (a b c : Word) :
    (Instr.make m a b c).operands = (a, b, c) := by cases m <;> rfl

@[simp] theorem Instr.make_operands (i : Instr) :
    Instr.make i.mnemonic i.operands.1 i.operands.2.1 i.operands.2.2 = i := by cases i <;> rfl

end Sys2Proof
end

