-- ==== Sys2Proof/Laws/Memory.lean ====
section
/-! SUPPORT. Memory: a read after a write, what a write leaves alone, and that every operation keeps the
canonical form. -/

namespace Sys2Proof.Machine

@[simp] theorem Memory.readCell_nil (a : Nat) : Memory.readCell [] a = unwritten := rfl

theorem Memory.readCell_cons (b : Nat) (v : Word) (m : Memory) (a : Nat) :
    Memory.readCell ((b, v) :: m) a = if b = a then v else m.readCell a := rfl

theorem Memory.readCell_eraseCell (m : Memory) (a b : Nat) :
    (m.eraseCell a).readCell b = if b = a then unwritten else m.readCell b := by
  induction m with
  | nil => simp [Memory.eraseCell]
  | cons c m ih =>
    obtain ⟨k, v⟩ := c
    simp only [Memory.eraseCell] at ih
    by_cases hk : k = a
    · subst hk
      by_cases hb : k = b
      · subst hb; simpa [Memory.eraseCell] using ih
      · simp [Memory.eraseCell, ih, Memory.readCell_cons, hb]
    · simp only [Memory.eraseCell, List.filter_cons, bne_iff_ne, ne_eq, hk, not_false_eq_true,
        if_true, Memory.readCell_cons, ih]
      by_cases hb : k = b
      · subst hb; simp [hk]
      · simp [hb]

theorem Memory.readCell_insertCell (m : Memory) (a b : Nat) (v : Word)
    (h : ∀ c ∈ m, c.1 ≠ a) :
    (m.insertCell a v).readCell b = if b = a then v else m.readCell b := by
  induction m with
  | nil => simp [Memory.insertCell, Memory.readCell_cons, eq_comm]
  | cons c m ih =>
    obtain ⟨k, w⟩ := c
    have hk : k ≠ a := h (k, w) (by simp)
    have ih := ih (fun c hc => h c (by simp [hc]))
    simp only [Memory.insertCell]
    split
    · simp only [Memory.readCell_cons, eq_comm]
    · simp only [Memory.readCell_cons, ih]
      by_cases hb : k = b
      · subst hb; simp [hk]
      · simp [hb]

theorem Memory.ne_of_mem_eraseCell {m : Memory} {a : Nat} {c : Nat × Word}
    (h : c ∈ m.eraseCell a) : c ∈ m ∧ c.1 ≠ a := by
  simpa [Memory.eraseCell] using h

/-- Once and for all: what a write changes, in every memory, canonical or not. -/
theorem Memory.readCell_writeCell (m : Memory) (a b : Nat) (v : Word) :
    (m.writeCell a v).readCell b = if b = a then v else m.readCell b := by
  unfold Memory.writeCell
  split
  · next h => rw [Memory.readCell_eraseCell, h]
  · rw [Memory.readCell_insertCell _ _ _ _ (fun c hc => (Memory.ne_of_mem_eraseCell hc).2),
      Memory.readCell_eraseCell]
    by_cases hb : b = a <;> simp [hb]

@[simp] theorem State.readCell_writeCell_same (s : State) (a : Nat) (v : Word) :
    (s.writeCell a v).readCell a = v := by
  simp [State.readCell, State.writeCell, Memory.readCell_writeCell]

theorem State.readCell_writeCell_other (s : State) {a b : Nat} (v : Word) (h : b ≠ a) :
    (s.writeCell a v).readCell b = s.readCell b := by
  simp [State.readCell, State.writeCell, Memory.readCell_writeCell, h]

theorem Memory.mem_insertCell {m : Memory} {a : Nat} {v : Word} {c : Nat × Word} :
    c ∈ m.insertCell a v ↔ c = (a, v) ∨ c ∈ m := by
  induction m with
  | nil => simp [Memory.insertCell]
  | cons d m ih =>
    obtain ⟨k, w⟩ := d
    simp only [Memory.insertCell]
    split
    · simp
    · simp only [List.mem_cons, ih]; tauto

/-- A cell listed after a write is the written one or was listed before. -/
theorem Memory.mem_writeCell {m : Memory} {a : Nat} {v : Word} {c : Nat × Word}
    (h : c ∈ m.writeCell a v) : c = (a, v) ∨ c ∈ m := by
  unfold Memory.writeCell at h
  split at h
  · exact .inr (Memory.ne_of_mem_eraseCell h).1
  · rcases Memory.mem_insertCell.1 h with h | h
    · exact .inl h
    · exact .inr (Memory.ne_of_mem_eraseCell h).1

theorem Memory.wf_nil : Memory.wf [] := by simp [Memory.wf]

theorem Memory.wf_eraseCell {m : Memory} (a : Nat) (h : m.wf) : (m.eraseCell a).wf :=
  ⟨h.1.sublist List.filter_sublist, fun c hc => h.2 c (Memory.ne_of_mem_eraseCell hc).1⟩

theorem Memory.wf_insertCell {m : Memory} {a : Nat} {v : Word} (h : m.wf) (hv : v ≠ unwritten)
    (ha : ∀ c ∈ m, c.1 ≠ a) : (m.insertCell a v).wf := by
  refine ⟨?_, fun c hc => ?_⟩
  · obtain ⟨hp, -⟩ := h
    induction m with
    | nil => simp [Memory.insertCell]
    | cons d m ih =>
      obtain ⟨k, w⟩ := d
      rw [List.pairwise_cons] at hp
      have hk : k ≠ a := ha (k, w) (by simp)
      simp only [Memory.insertCell]
      split
      · next hlt =>
        refine List.pairwise_cons.2 ⟨fun c hc => ?_, List.pairwise_cons.2 hp⟩
        rcases List.mem_cons.1 hc with rfl | hc
        · exact hlt
        · exact lt_trans hlt (hp.1 c hc)
      · next hlt =>
        refine List.pairwise_cons.2 ⟨fun c hc => ?_, ih (fun c hc => ha c (by simp [hc])) hp.2⟩
        rcases Memory.mem_insertCell.1 hc with rfl | hc
        · simp only; omega
        · exact hp.1 c hc
  · rcases Memory.mem_insertCell.1 hc with rfl | hc
    · exact hv
    · exact h.2 c hc

/-- A write keeps the canonical form. -/
theorem Memory.wf_writeCell {m : Memory} (a : Nat) (v : Word) (h : m.wf) : (m.writeCell a v).wf := by
  unfold Memory.writeCell
  split
  · exact Memory.wf_eraseCell a h
  · next hv =>
    exact Memory.wf_insertCell (Memory.wf_eraseCell a h) hv
      (fun c hc => (Memory.ne_of_mem_eraseCell hc).2)

/-- The memory of the reset state is canonical. -/
theorem Memory.wf_reset : State.reset.mem.wf := Memory.wf_nil

end Sys2Proof.Machine
end

