-- ==== Sys2Proof/Laws/State.lean ====
section
/-! SUPPORT. What each update of the state does to each field: one lemma per field per update, true by `rfl`,
so that no later proof unfolds a record update. -/

namespace Sys2Proof.Machine

/-! ## writeCell -/

@[simp] theorem State.writeCell_cfg (s : State) (a : Nat) (v : Word) :
    (s.writeCell a v).cfg = s.cfg := rfl
@[simp] theorem State.writeCell_phase (s : State) (a : Nat) (v : Word) :
    (s.writeCell a v).phase = s.phase := rfl
@[simp] theorem State.writeCell_status (s : State) (a : Nat) (v : Word) :
    (s.writeCell a v).status = s.status := rfl
@[simp] theorem State.writeCell_ip (s : State) (a : Nat) (v : Word) :
    (s.writeCell a v).ip = s.ip := rfl
@[simp] theorem State.writeCell_memorySize (s : State) (a : Nat) (v : Word) :
    (s.writeCell a v).memorySize = s.memorySize := rfl
@[simp] theorem State.writeCell_mem (s : State) (a : Nat) (v : Word) :
    (s.writeCell a v).mem = s.mem.writeCell a v := rfl
@[simp] theorem State.writeCell_program (s : State) (a : Nat) (v : Word) :
    (s.writeCell a v).program = s.program := rfl
@[simp] theorem State.writeCell_trace (s : State) (a : Nat) (v : Word) :
    (s.writeCell a v).trace = s.trace := rfl
@[simp] theorem State.writeCell_inPort (s : State) (a : Nat) (v : Word) :
    (s.writeCell a v).inPort = s.inPort := rfl
@[simp] theorem State.writeCell_loader (s : State) (a : Nat) (v : Word) :
    (s.writeCell a v).loader = s.loader := rfl

/-! ## advance -/

@[simp] theorem State.advance_cfg (s : State) :
    s.advance.cfg = s.cfg := rfl
@[simp] theorem State.advance_phase (s : State) :
    s.advance.phase = s.phase := rfl
@[simp] theorem State.advance_status (s : State) :
    s.advance.status = s.status := rfl
@[simp] theorem State.advance_ip (s : State) :
    s.advance.ip = s.ip + 1 := rfl
@[simp] theorem State.advance_memorySize (s : State) :
    s.advance.memorySize = s.memorySize := rfl
@[simp] theorem State.advance_mem (s : State) :
    s.advance.mem = s.mem := rfl
@[simp] theorem State.advance_program (s : State) :
    s.advance.program = s.program := rfl
@[simp] theorem State.advance_trace (s : State) :
    s.advance.trace = s.trace := rfl
@[simp] theorem State.advance_inPort (s : State) :
    s.advance.inPort = s.inPort := rfl
@[simp] theorem State.advance_loader (s : State) :
    s.advance.loader = s.loader := rfl

/-! ## skipNext -/

@[simp] theorem State.skipNext_cfg (s : State) :
    s.skipNext.cfg = s.cfg := rfl
@[simp] theorem State.skipNext_phase (s : State) :
    s.skipNext.phase = s.phase := rfl
@[simp] theorem State.skipNext_status (s : State) :
    s.skipNext.status = s.status := rfl
@[simp] theorem State.skipNext_ip (s : State) :
    s.skipNext.ip = s.ip + 2 := rfl
@[simp] theorem State.skipNext_memorySize (s : State) :
    s.skipNext.memorySize = s.memorySize := rfl
@[simp] theorem State.skipNext_mem (s : State) :
    s.skipNext.mem = s.mem := rfl
@[simp] theorem State.skipNext_program (s : State) :
    s.skipNext.program = s.program := rfl
@[simp] theorem State.skipNext_trace (s : State) :
    s.skipNext.trace = s.trace := rfl
@[simp] theorem State.skipNext_inPort (s : State) :
    s.skipNext.inPort = s.inPort := rfl
@[simp] theorem State.skipNext_loader (s : State) :
    s.skipNext.loader = s.loader := rfl

/-! ## jumpTo -/

@[simp] theorem State.jumpTo_cfg (s : State) (t : Word) :
    (s.jumpTo t).cfg = s.cfg := rfl
@[simp] theorem State.jumpTo_phase (s : State) (t : Word) :
    (s.jumpTo t).phase = s.phase := rfl
@[simp] theorem State.jumpTo_status (s : State) (t : Word) :
    (s.jumpTo t).status = s.status := rfl
@[simp] theorem State.jumpTo_ip (s : State) (t : Word) :
    (s.jumpTo t).ip = t := rfl
@[simp] theorem State.jumpTo_memorySize (s : State) (t : Word) :
    (s.jumpTo t).memorySize = s.memorySize := rfl
@[simp] theorem State.jumpTo_mem (s : State) (t : Word) :
    (s.jumpTo t).mem = s.mem := rfl
@[simp] theorem State.jumpTo_program (s : State) (t : Word) :
    (s.jumpTo t).program = s.program := rfl
@[simp] theorem State.jumpTo_trace (s : State) (t : Word) :
    (s.jumpTo t).trace = s.trace := rfl
@[simp] theorem State.jumpTo_inPort (s : State) (t : Word) :
    (s.jumpTo t).inPort = s.inPort := rfl
@[simp] theorem State.jumpTo_loader (s : State) (t : Word) :
    (s.jumpTo t).loader = s.loader := rfl

/-! ## emit -/

@[simp] theorem State.emit_cfg (s : State) (e : Event) :
    (s.emit e).cfg = s.cfg := rfl
@[simp] theorem State.emit_phase (s : State) (e : Event) :
    (s.emit e).phase = s.phase := rfl
@[simp] theorem State.emit_status (s : State) (e : Event) :
    (s.emit e).status = s.status := rfl
@[simp] theorem State.emit_ip (s : State) (e : Event) :
    (s.emit e).ip = s.ip := rfl
@[simp] theorem State.emit_memorySize (s : State) (e : Event) :
    (s.emit e).memorySize = s.memorySize := rfl
@[simp] theorem State.emit_mem (s : State) (e : Event) :
    (s.emit e).mem = s.mem := rfl
@[simp] theorem State.emit_program (s : State) (e : Event) :
    (s.emit e).program = s.program := rfl
@[simp] theorem State.emit_trace (s : State) (e : Event) :
    (s.emit e).trace = s.trace ++ [e] := rfl
@[simp] theorem State.emit_inPort (s : State) (e : Event) :
    (s.emit e).inPort = s.inPort := rfl
@[simp] theorem State.emit_loader (s : State) (e : Event) :
    (s.emit e).loader = s.loader := rfl

/-! ## takeFatal -/

@[simp] theorem State.takeFatal_cfg (s : State) (c : FatalClass) (d : Diagnostic) :
    (s.takeFatal c d).cfg = s.cfg := rfl
@[simp] theorem State.takeFatal_phase (s : State) (c : FatalClass) (d : Diagnostic) :
    (s.takeFatal c d).phase = .halt := rfl
@[simp] theorem State.takeFatal_status (s : State) (c : FatalClass) (d : Diagnostic) :
    (s.takeFatal c d).status = s.cfg.statusCodes.code c := rfl
@[simp] theorem State.takeFatal_ip (s : State) (c : FatalClass) (d : Diagnostic) :
    (s.takeFatal c d).ip = s.ip := rfl
@[simp] theorem State.takeFatal_memorySize (s : State) (c : FatalClass) (d : Diagnostic) :
    (s.takeFatal c d).memorySize = s.memorySize := rfl
@[simp] theorem State.takeFatal_mem (s : State) (c : FatalClass) (d : Diagnostic) :
    (s.takeFatal c d).mem = s.mem := rfl
@[simp] theorem State.takeFatal_program (s : State) (c : FatalClass) (d : Diagnostic) :
    (s.takeFatal c d).program = s.program := rfl
@[simp] theorem State.takeFatal_trace (s : State) (c : FatalClass) (d : Diagnostic) :
    (s.takeFatal c d).trace = s.trace ++ [.diag d] := rfl
@[simp] theorem State.takeFatal_inPort (s : State) (c : FatalClass) (d : Diagnostic) :
    (s.takeFatal c d).inPort = s.inPort := rfl
@[simp] theorem State.takeFatal_loader (s : State) (c : FatalClass) (d : Diagnostic) :
    (s.takeFatal c d).loader = s.loader := rfl

/-! ## raiseAddressError -/

@[simp] theorem State.raiseAddressError_cfg (s : State) (k : AddressKind) (v : Word) :
    (s.raiseAddressError k v).cfg = s.cfg := rfl
@[simp] theorem State.raiseAddressError_phase (s : State) (k : AddressKind) (v : Word) :
    (s.raiseAddressError k v).phase = .halt := rfl
@[simp] theorem State.raiseAddressError_status (s : State) (k : AddressKind) (v : Word) :
    (s.raiseAddressError k v).status = s.cfg.statusCodes.addressError := rfl
@[simp] theorem State.raiseAddressError_ip (s : State) (k : AddressKind) (v : Word) :
    (s.raiseAddressError k v).ip = s.ip := rfl
@[simp] theorem State.raiseAddressError_memorySize (s : State) (k : AddressKind) (v : Word) :
    (s.raiseAddressError k v).memorySize = s.memorySize := rfl
@[simp] theorem State.raiseAddressError_mem (s : State) (k : AddressKind) (v : Word) :
    (s.raiseAddressError k v).mem = s.mem := rfl
@[simp] theorem State.raiseAddressError_program (s : State) (k : AddressKind) (v : Word) :
    (s.raiseAddressError k v).program = s.program := rfl
@[simp] theorem State.raiseAddressError_trace (s : State) (k : AddressKind) (v : Word) :
    (s.raiseAddressError k v).trace = s.trace ++ [.diag (.addressError s.ip k v)] := rfl
@[simp] theorem State.raiseAddressError_inPort (s : State) (k : AddressKind) (v : Word) :
    (s.raiseAddressError k v).inPort = s.inPort := rfl
@[simp] theorem State.raiseAddressError_loader (s : State) (k : AddressKind) (v : Word) :
    (s.raiseAddressError k v).loader = s.loader := rfl

/-! ## recover -/

@[simp] theorem State.recover_cfg (s : State) (d : Diagnostic) :
    (s.recover d).cfg = s.cfg := rfl
@[simp] theorem State.recover_phase (s : State) (d : Diagnostic) :
    (s.recover d).phase = s.phase := rfl
@[simp] theorem State.recover_status (s : State) (d : Diagnostic) :
    (s.recover d).status = s.status := rfl
@[simp] theorem State.recover_ip (s : State) (d : Diagnostic) :
    (s.recover d).ip = s.ip + 1 := rfl
@[simp] theorem State.recover_memorySize (s : State) (d : Diagnostic) :
    (s.recover d).memorySize = s.memorySize := rfl
@[simp] theorem State.recover_mem (s : State) (d : Diagnostic) :
    (s.recover d).mem = s.mem := rfl
@[simp] theorem State.recover_program (s : State) (d : Diagnostic) :
    (s.recover d).program = s.program := rfl
@[simp] theorem State.recover_trace (s : State) (d : Diagnostic) :
    (s.recover d).trace = s.trace ++ [.diag d] := rfl
@[simp] theorem State.recover_inPort (s : State) (d : Diagnostic) :
    (s.recover d).inPort = s.inPort := rfl
@[simp] theorem State.recover_loader (s : State) (d : Diagnostic) :
    (s.recover d).loader = s.loader := rfl

/-! ## haltNormally -/

@[simp] theorem State.haltNormally_cfg (s : State) :
    s.haltNormally.cfg = s.cfg := rfl
@[simp] theorem State.haltNormally_phase (s : State) :
    s.haltNormally.phase = .halt := rfl
@[simp] theorem State.haltNormally_status (s : State) :
    s.haltNormally.status = 0 := rfl
@[simp] theorem State.haltNormally_ip (s : State) :
    s.haltNormally.ip = s.ip := rfl
@[simp] theorem State.haltNormally_memorySize (s : State) :
    s.haltNormally.memorySize = s.memorySize := rfl
@[simp] theorem State.haltNormally_mem (s : State) :
    s.haltNormally.mem = s.mem := rfl
@[simp] theorem State.haltNormally_program (s : State) :
    s.haltNormally.program = s.program := rfl
@[simp] theorem State.haltNormally_trace (s : State) :
    s.haltNormally.trace = s.trace := rfl
@[simp] theorem State.haltNormally_inPort (s : State) :
    s.haltNormally.inPort = s.inPort := rfl
@[simp] theorem State.haltNormally_loader (s : State) :
    s.haltNormally.loader = s.loader := rfl

/-! ## unknownOpcode -/

@[simp] theorem State.unknownOpcode_cfg (s : State) (b : Byte) :
    (s.unknownOpcode b).cfg = s.cfg := rfl
@[simp] theorem State.unknownOpcode_phase (s : State) (b : Byte) :
    (s.unknownOpcode b).phase = s.phase := rfl
@[simp] theorem State.unknownOpcode_status (s : State) (b : Byte) :
    (s.unknownOpcode b).status = s.status := rfl
@[simp] theorem State.unknownOpcode_ip (s : State) (b : Byte) :
    (s.unknownOpcode b).ip = s.ip + 1 := rfl
@[simp] theorem State.unknownOpcode_memorySize (s : State) (b : Byte) :
    (s.unknownOpcode b).memorySize = s.memorySize := rfl
@[simp] theorem State.unknownOpcode_mem (s : State) (b : Byte) :
    (s.unknownOpcode b).mem = s.mem := rfl
@[simp] theorem State.unknownOpcode_program (s : State) (b : Byte) :
    (s.unknownOpcode b).program = s.program := rfl
@[simp] theorem State.unknownOpcode_trace (s : State) (b : Byte) :
    (s.unknownOpcode b).trace = s.trace ++ [.diag (.unknownOpcodeError s.ip b)] := rfl
@[simp] theorem State.unknownOpcode_inPort (s : State) (b : Byte) :
    (s.unknownOpcode b).inPort = s.inPort := rfl
@[simp] theorem State.unknownOpcode_loader (s : State) (b : Byte) :
    (s.unknownOpcode b).loader = s.loader := rfl

/-! ## enterRun -/

@[simp] theorem State.enterRun_cfg (s : State) (n : Size) (p : List Record) :
    (s.enterRun n p).cfg = s.cfg := rfl
@[simp] theorem State.enterRun_phase (s : State) (n : Size) (p : List Record) :
    (s.enterRun n p).phase = .run := rfl
@[simp] theorem State.enterRun_status (s : State) (n : Size) (p : List Record) :
    (s.enterRun n p).status = s.status := rfl
@[simp] theorem State.enterRun_ip (s : State) (n : Size) (p : List Record) :
    (s.enterRun n p).ip = s.ip := rfl
@[simp] theorem State.enterRun_memorySize (s : State) (n : Size) (p : List Record) :
    (s.enterRun n p).memorySize = n := rfl
@[simp] theorem State.enterRun_mem (s : State) (n : Size) (p : List Record) :
    (s.enterRun n p).mem = [] := rfl
@[simp] theorem State.enterRun_program (s : State) (n : Size) (p : List Record) :
    (s.enterRun n p).program = p := rfl
@[simp] theorem State.enterRun_trace (s : State) (n : Size) (p : List Record) :
    (s.enterRun n p).trace = s.trace := rfl
@[simp] theorem State.enterRun_inPort (s : State) (n : Size) (p : List Record) :
    (s.enterRun n p).inPort = .released := rfl
@[simp] theorem State.enterRun_loader (s : State) (n : Size) (p : List Record) :
    (s.enterRun n p).loader = LoaderState.initial := rfl

/-! ## failLoad -/

@[simp] theorem State.failLoad_cfg (s : State) (c : FatalClass) (d : Diagnostic) :
    (s.failLoad c d).cfg = s.cfg := rfl
@[simp] theorem State.failLoad_phase (s : State) (c : FatalClass) (d : Diagnostic) :
    (s.failLoad c d).phase = .halt := rfl
@[simp] theorem State.failLoad_status (s : State) (c : FatalClass) (d : Diagnostic) :
    (s.failLoad c d).status = s.cfg.statusCodes.code c := rfl
@[simp] theorem State.failLoad_ip (s : State) (c : FatalClass) (d : Diagnostic) :
    (s.failLoad c d).ip = s.ip := rfl
@[simp] theorem State.failLoad_memorySize (s : State) (c : FatalClass) (d : Diagnostic) :
    (s.failLoad c d).memorySize = 0 := rfl
@[simp] theorem State.failLoad_mem (s : State) (c : FatalClass) (d : Diagnostic) :
    (s.failLoad c d).mem = [] := rfl
@[simp] theorem State.failLoad_program (s : State) (c : FatalClass) (d : Diagnostic) :
    (s.failLoad c d).program = [] := rfl
@[simp] theorem State.failLoad_trace (s : State) (c : FatalClass) (d : Diagnostic) :
    (s.failLoad c d).trace = s.trace ++ [.diag d] := rfl
@[simp] theorem State.failLoad_inPort (s : State) (c : FatalClass) (d : Diagnostic) :
    (s.failLoad c d).inPort = .released := rfl
@[simp] theorem State.failLoad_loader (s : State) (c : FatalClass) (d : Diagnostic) :
    (s.failLoad c d).loader = LoaderState.initial := rfl

/-! ## failFormat -/

@[simp] theorem State.failFormat_cfg (s : State) (f : FormatDefect) :
    (s.failFormat f).cfg = s.cfg := rfl
@[simp] theorem State.failFormat_phase (s : State) (f : FormatDefect) :
    (s.failFormat f).phase = .halt := rfl
@[simp] theorem State.failFormat_status (s : State) (f : FormatDefect) :
    (s.failFormat f).status = s.cfg.statusCodes.formatError := rfl
@[simp] theorem State.failFormat_ip (s : State) (f : FormatDefect) :
    (s.failFormat f).ip = s.ip := rfl
@[simp] theorem State.failFormat_memorySize (s : State) (f : FormatDefect) :
    (s.failFormat f).memorySize = 0 := rfl
@[simp] theorem State.failFormat_mem (s : State) (f : FormatDefect) :
    (s.failFormat f).mem = [] := rfl
@[simp] theorem State.failFormat_program (s : State) (f : FormatDefect) :
    (s.failFormat f).program = [] := rfl
@[simp] theorem State.failFormat_trace (s : State) (f : FormatDefect) :
    (s.failFormat f).trace = s.trace ++ [.diag (.formatError f)] := rfl
@[simp] theorem State.failFormat_inPort (s : State) (f : FormatDefect) :
    (s.failFormat f).inPort = .released := rfl
@[simp] theorem State.failFormat_loader (s : State) (f : FormatDefect) :
    (s.failFormat f).loader = LoaderState.initial := rfl

/-! ## keepByte -/

@[simp] theorem State.keepByte_cfg (s : State) (b : Byte) :
    (s.keepByte b).cfg = s.cfg := rfl
@[simp] theorem State.keepByte_phase (s : State) (b : Byte) :
    (s.keepByte b).phase = s.phase := rfl
@[simp] theorem State.keepByte_status (s : State) (b : Byte) :
    (s.keepByte b).status = s.status := rfl
@[simp] theorem State.keepByte_ip (s : State) (b : Byte) :
    (s.keepByte b).ip = s.ip := rfl
@[simp] theorem State.keepByte_memorySize (s : State) (b : Byte) :
    (s.keepByte b).memorySize = s.memorySize := rfl
@[simp] theorem State.keepByte_mem (s : State) (b : Byte) :
    (s.keepByte b).mem = s.mem := rfl
@[simp] theorem State.keepByte_program (s : State) (b : Byte) :
    (s.keepByte b).program = s.program := rfl
@[simp] theorem State.keepByte_trace (s : State) (b : Byte) :
    (s.keepByte b).trace = s.trace := rfl
@[simp] theorem State.keepByte_inPort (s : State) (b : Byte) :
    (s.keepByte b).inPort = s.inPort := rfl
@[simp] theorem State.keepByte_loader (s : State) (b : Byte) :
    (s.keepByte b).loader = { consumed := s.loader.consumed + 1, buffer := s.loader.buffer ++ [b] } := rfl

/-! ## clearBuffer -/

@[simp] theorem State.clearBuffer_cfg (s : State) :
    s.clearBuffer.cfg = s.cfg := rfl
@[simp] theorem State.clearBuffer_phase (s : State) :
    s.clearBuffer.phase = s.phase := rfl
@[simp] theorem State.clearBuffer_status (s : State) :
    s.clearBuffer.status = s.status := rfl
@[simp] theorem State.clearBuffer_ip (s : State) :
    s.clearBuffer.ip = s.ip := rfl
@[simp] theorem State.clearBuffer_memorySize (s : State) :
    s.clearBuffer.memorySize = s.memorySize := rfl
@[simp] theorem State.clearBuffer_mem (s : State) :
    s.clearBuffer.mem = s.mem := rfl
@[simp] theorem State.clearBuffer_program (s : State) :
    s.clearBuffer.program = s.program := rfl
@[simp] theorem State.clearBuffer_trace (s : State) :
    s.clearBuffer.trace = s.trace := rfl
@[simp] theorem State.clearBuffer_inPort (s : State) :
    s.clearBuffer.inPort = s.inPort := rfl
@[simp] theorem State.clearBuffer_loader (s : State) :
    s.clearBuffer.loader = { consumed := s.loader.consumed, buffer := [] } := rfl

/-! ## Views of the state -/

@[simp] theorem State.writeCell_instructionCount (s : State) (a : Nat) (v : Word) :
    (s.writeCell a v).instructionCount = s.instructionCount := rfl
@[simp] theorem State.advance_readCell (s : State) (b : Nat) :
    s.advance.readCell b = s.readCell b := rfl
@[simp] theorem State.advance_instructionCount (s : State) :
    s.advance.instructionCount = s.instructionCount := rfl
@[simp] theorem State.skipNext_readCell (s : State) (b : Nat) :
    s.skipNext.readCell b = s.readCell b := rfl
@[simp] theorem State.skipNext_instructionCount (s : State) :
    s.skipNext.instructionCount = s.instructionCount := rfl
@[simp] theorem State.jumpTo_readCell (s : State) (t : Word) (b : Nat) :
    (s.jumpTo t).readCell b = s.readCell b := rfl
@[simp] theorem State.jumpTo_instructionCount (s : State) (t : Word) :
    (s.jumpTo t).instructionCount = s.instructionCount := rfl
@[simp] theorem State.emit_readCell (s : State) (e : Event) (b : Nat) :
    (s.emit e).readCell b = s.readCell b := rfl
@[simp] theorem State.emit_instructionCount (s : State) (e : Event) :
    (s.emit e).instructionCount = s.instructionCount := rfl
@[simp] theorem State.takeFatal_readCell (s : State) (c : FatalClass) (d : Diagnostic) (b : Nat) :
    (s.takeFatal c d).readCell b = s.readCell b := rfl
@[simp] theorem State.takeFatal_instructionCount (s : State) (c : FatalClass) (d : Diagnostic) :
    (s.takeFatal c d).instructionCount = s.instructionCount := rfl
@[simp] theorem State.raiseAddressError_readCell (s : State) (k : AddressKind) (v : Word) (b : Nat) :
    (s.raiseAddressError k v).readCell b = s.readCell b := rfl
@[simp] theorem State.raiseAddressError_instructionCount (s : State) (k : AddressKind) (v : Word) :
    (s.raiseAddressError k v).instructionCount = s.instructionCount := rfl
@[simp] theorem State.recover_readCell (s : State) (d : Diagnostic) (b : Nat) :
    (s.recover d).readCell b = s.readCell b := rfl
@[simp] theorem State.recover_instructionCount (s : State) (d : Diagnostic) :
    (s.recover d).instructionCount = s.instructionCount := rfl
@[simp] theorem State.haltNormally_readCell (s : State) (b : Nat) :
    s.haltNormally.readCell b = s.readCell b := rfl
@[simp] theorem State.haltNormally_instructionCount (s : State) :
    s.haltNormally.instructionCount = s.instructionCount := rfl
@[simp] theorem State.unknownOpcode_readCell (s : State) (b : Byte) (a : Nat) :
    (s.unknownOpcode b).readCell a = s.readCell a := rfl
@[simp] theorem State.unknownOpcode_instructionCount (s : State) (b : Byte) :
    (s.unknownOpcode b).instructionCount = s.instructionCount := rfl
@[simp] theorem State.keepByte_readCell (s : State) (b : Byte) (a : Nat) :
    (s.keepByte b).readCell a = s.readCell a := rfl
@[simp] theorem State.keepByte_instructionCount (s : State) (b : Byte) :
    (s.keepByte b).instructionCount = s.instructionCount := rfl
@[simp] theorem State.clearBuffer_readCell (s : State) (b : Nat) :
    s.clearBuffer.readCell b = s.readCell b := rfl
@[simp] theorem State.clearBuffer_instructionCount (s : State) :
    s.clearBuffer.instructionCount = s.instructionCount := rfl

end Sys2Proof.Machine
end

