-- ==== Sys2Proof/Laws/Ops.lean ====
section
/-! SUPPORT. What each shared operation of the meanings can do, once: the check, the ternary form, the
one write of a result, the fetch. -/

namespace Sys2Proof.Machine

theorem checked_of_inRange {s : State} {a : Word} (rest : Nat → Answer) (h : s.inRange a) :
    checked s a rest = rest a.toNat := if_pos h

theorem checked_of_not_inRange {s : State} {a : Word} (rest : Nat → Answer) (h : ¬ s.inRange a) :
    checked s a rest = .next (s.raiseAddressError .memIndex a) := if_neg h

/-- A checked access goes on with the cell index, or raises AddressError. -/
theorem checked_cases (s : State) (a : Word) (rest : Nat → Answer) :
    (s.inRange a ∧ checked s a rest = rest a.toNat) ∨
    (¬ s.inRange a ∧ checked s a rest = .next (s.raiseAddressError .memIndex a)) := by
  by_cases h : s.inRange a
  · exact .inl ⟨h, checked_of_inRange rest h⟩
  · exact .inr ⟨h, checked_of_not_inRange rest h⟩

theorem withTernary_of_inRange {s : State} {a b c : Word} (rest : Nat → Word → Word → Answer)
    (ha : s.inRange a) (hb : s.inRange b) (hc : s.inRange c) :
    withTernary s a b c rest = rest a.toNat (s.readCell b.toNat) (s.readCell c.toNat) := by
  simp only [withTernary, checked_of_inRange _ ha, checked_of_inRange _ hb, checked_of_inRange _ hc]

/-- The ternary form goes on with the three cells, or raises AddressError for one of the operands. -/
theorem withTernary_cases (s : State) (a b c : Word) (rest : Nat → Word → Word → Answer) :
    (s.inRange a ∧ s.inRange b ∧ s.inRange c ∧
      withTernary s a b c rest = rest a.toNat (s.readCell b.toNat) (s.readCell c.toNat)) ∨
    (∃ v, ¬ s.inRange v ∧ withTernary s a b c rest = .next (s.raiseAddressError .memIndex v)) := by
  unfold withTernary
  rcases checked_cases s a _ with ⟨ha, h⟩ | ⟨ha, h⟩ <;> rw [h]
  · rcases checked_cases s b _ with ⟨hb, h⟩ | ⟨hb, h⟩ <;> rw [h]
    · rcases checked_cases s c _ with ⟨hc, h⟩ | ⟨hc, h⟩ <;> rw [h]
      · exact .inl ⟨ha, hb, hc, rfl⟩
      · exact .inr ⟨c, hc, rfl⟩
    · exact .inr ⟨b, hb, rfl⟩
  · exact .inr ⟨a, ha, rfl⟩

/-- The write of a result completes with one write and the advance, or is the model fault of R210. -/
theorem writeResult_cases (s : State) (mode : OverflowMode) (p : Bool) (d : Nat) (z : Int) :
    (¬ (mode = .fault ∧ p) ∧ writeResult s mode p d z = .next (s.writeCell d (wrap64 z)).advance) ∨
    ((mode = .fault ∧ p) ∧ writeResult s mode p d z = .fault (.arithOverflow s.ip)) := by
  by_cases h : mode = .fault ∧ p
  · exact .inr ⟨h, if_pos h⟩
  · exact .inl ⟨h, if_neg h⟩

/-- The address test as an unsigned compare: every index that passes is below `memorySize` (R53). -/
theorem State.inRange_iff (s : State) (a : Word) :
    s.inRange a ↔ a.toNat < s.memorySize.toNat := by
  have h1 := s.memorySize.isLt
  have h2 := a.isLt
  rw [State.inRange, BitVec.toInt_eq_toNat_cond]
  split <;> omega

/-- The target test of JMP as an unsigned compare, where the Program is not longer than 2^63. -/
theorem State.isTarget_iff (s : State) (t : Word) (h : s.instructionCount ≤ 2 ^ 63) :
    s.isTarget t ↔ t.toNat < s.instructionCount := by
  have h2 := t.isLt
  rw [State.isTarget, BitVec.toInt_eq_toNat_cond]
  split <;> omega

theorem State.fetch_eq_none_iff (s : State) : s.fetch = none ↔ s.instructionCount ≤ s.ip.toNat := by
  simp [State.fetch, State.instructionCount]

theorem State.lt_of_fetch {s : State} {r : Record} (h : s.fetch = some r) :
    s.ip.toNat < s.instructionCount := by
  have := List.getElem?_eq_some_iff.1 h
  exact this.1

/-- What one step of the Executor is (R146). -/
theorem runStep_cases (s : State) :
    (s.fetch = none ∧ runStep s = .next s.haltNormally) ∨
    (∃ r i, s.fetch = some r ∧ decodeRecord s.cfg.opcodeMap r = .ok i ∧ runStep s = exec i s) ∨
    (∃ r, s.fetch = some r ∧ s.cfg.opcodeMap.mnemonic r.opcode = none ∧
      runStep s = .next (s.unknownOpcode r.opcode)) := by
  unfold runStep
  cases hf : s.fetch with
  | none => exact .inl ⟨rfl, rfl⟩
  | some r =>
    cases hm : s.cfg.opcodeMap.mnemonic r.opcode with
    | none => exact .inr (.inr ⟨r, rfl, hm, by simp [decodeRecord, hm]⟩)
    | some m =>
      exact .inr (.inl ⟨r, Instr.make m r.op1 r.op2 r.op3, rfl, by simp [decodeRecord, hm],
        by simp [decodeRecord, hm]⟩)

end Sys2Proof.Machine
end

