-- ==== Sys2Proof/Laws/Exec.lean ====
section
/-! SUPPORT. What an instruction can do, once for all twelve: every way `exec` can answer. -/

namespace Sys2Proof.Machine

/-! ## The arm of each operation -/

theorem exec_nop (a b c : Word) (s : State) : exec (.nop a b c) s = execNop a b c s := rfl
theorem exec_set (a b c : Word) (s : State) : exec (.set a b c) s = execSet a b c s := rfl
theorem exec_load (a b c : Word) (s : State) : exec (.load a b c) s = execLoad a b c s := rfl
theorem exec_store (a b c : Word) (s : State) : exec (.store a b c) s = execStore a b c s := rfl
theorem exec_jmp (a b c : Word) (s : State) : exec (.jmp a b c) s = execJmp a b c s := rfl
theorem exec_sgz (a b c : Word) (s : State) : exec (.sgz a b c) s = execSgz a b c s := rfl
theorem exec_add (a b c : Word) (s : State) : exec (.add a b c) s = execAdd a b c s := rfl
theorem exec_mul (a b c : Word) (s : State) : exec (.mul a b c) s = execMul a b c s := rfl
theorem exec_div (a b c : Word) (s : State) : exec (.div a b c) s = execDiv a b c s := rfl
theorem exec_mod (a b c : Word) (s : State) : exec (.mod a b c) s = execMod a b c s := rfl
theorem exec_out (a b c : Word) (s : State) : exec (.out a b c) s = execOut a b c s := rfl
theorem exec_sleep (a b c : Word) (s : State) : exec (.sleep a b c) s = execSleep a b c s := rfl

/-! ## The shapes of an answer -/

/-- The shapes of an instruction's answer. `exec` never refuses. -/
inductive ExecShape (i : Instr) (s : State) : Answer → Prop
  /-- A NOP: the default advance, nothing written. -/
  | advance : i.mnemonic = .nop → ExecShape i s (.next s.advance)
  /-- An SGZ whose cell is not greater than zero. -/
  | noSkip (a b c : Word) : i = .sgz a b c → s.inRange a → (s.readCell a.toNat).toInt ≤ 0 →
      ExecShape i s (.next s.advance)
  /-- A taking SGZ. -/
  | skip (a b c : Word) : i = .sgz a b c → s.inRange a → 0 < (s.readCell a.toNat).toInt →
      ExecShape i s (.next s.skipNext)
  /-- A JMP to a legal target. -/
  | jump (a b c : Word) : i = .jmp a b c → s.inRange a → s.isTarget (s.readCell a.toNat) →
      ExecShape i s (.next (s.jumpTo (s.readCell a.toNat)))
  /-- One cell written. -/
  | write (a v : Word) : s.inRange a →
      destinationCell s i = some a.toNat →
      ExecShape i s (.next (s.writeCell a.toNat v).advance)
  /-- One byte on OUT. -/
  | out (a b c : Word) : i = .out a b c → s.inRange a →
      ExecShape i s (.next (s.emit (.out (lowByte (s.readCell a.toNat)))).advance)
  /-- One request on DELAY. -/
  | sleep (a b c : Word) : i = .sleep a b c → s.inRange a →
      ExecShape i s (.next (s.emit (.sleep (s.readCell a.toNat))).advance)
  /-- A zero divisor. -/
  | zeroDivisor : i.mnemonic = .div ∨ i.mnemonic = .mod →
      ExecShape i s (.next (s.recover (.arithmeticError s.ip i.mnemonic)))
  /-- AddressError. -/
  | addressError (k : AddressKind) (v : Word) : i.mnemonic ≠ .nop →
      ExecShape i s (.next (s.raiseAddressError k v))
  /-- The model fault of R210. -/
  | overflow : (i.mnemonic = .add ∨ i.mnemonic = .mul) ∧ s.cfg.arithOverflow = .fault ∨
      (i.mnemonic = .div ∨ i.mnemonic = .mod) ∧ s.cfg.divOverflow = .fault →
      ExecShape i s (.fault (.arithOverflow s.ip))

theorem execShape_checked {i : Instr} {s : State} {a : Word} {rest : Nat → Answer}
    (hi : i.mnemonic ≠ .nop) (h : s.inRange a → ExecShape i s (rest a.toNat)) :
    ExecShape i s (checked s a rest) := by
  rcases checked_cases s a rest with ⟨ha, e⟩ | ⟨_, e⟩ <;> rw [e]
  · exact h ha
  · exact .addressError _ _ hi

theorem execShape_ternary {i : Instr} {s : State} {a b c : Word} {rest : Nat → Word → Word → Answer}
    (hi : i.mnemonic ≠ .nop)
    (h : s.inRange a → ExecShape i s (rest a.toNat (s.readCell b.toNat) (s.readCell c.toNat))) :
    ExecShape i s (withTernary s a b c rest) := by
  rcases withTernary_cases s a b c rest with ⟨ha, _, _, e⟩ | ⟨v, _, e⟩ <;> rw [e]
  · exact h ha
  · exact .addressError _ _ hi

/-- Every answer of every instruction has one of the shapes. -/
theorem exec_shape (i : Instr) (s : State) : ExecShape i s (exec i s) := by
  cases i with
  | nop a b c =>
    change ExecShape _ s (execNop a b c s)
    unfold execNop
    exact .advance rfl
  | set a b c =>
    change ExecShape _ s (execSet a b c s)
    unfold execSet
    exact execShape_checked (by simp [Instr.mnemonic]) fun h => .write a b h rfl
  | load a b c =>
    change ExecShape _ s (execLoad a b c s)
    unfold execLoad
    exact execShape_checked (by simp [Instr.mnemonic]) fun h => execShape_checked (by simp [Instr.mnemonic]) fun _ =>
      execShape_checked (by simp [Instr.mnemonic]) fun _ => .write a _ h rfl
  | store a b c =>
    change ExecShape _ s (execStore a b c s)
    unfold execStore
    exact execShape_checked (by simp [Instr.mnemonic]) fun _ => execShape_checked (by simp [Instr.mnemonic]) fun _ =>
      execShape_checked (by simp [Instr.mnemonic]) fun h => .write _ _ h rfl
  | jmp a b c =>
    change ExecShape _ s (execJmp a b c s)
    unfold execJmp
    refine execShape_checked (by simp [Instr.mnemonic]) fun ha => ?_
    split
    · next h => exact .jump a b c rfl ha h
    · exact .addressError _ _ (by simp [Instr.mnemonic])
  | sgz a b c =>
    change ExecShape _ s (execSgz a b c s)
    unfold execSgz
    refine execShape_checked (by simp [Instr.mnemonic]) fun ha => ?_
    split
    · next h => exact .skip a b c rfl ha h
    · next h => exact .noSkip a b c rfl ha (by omega)
  | add a b c =>
    change ExecShape _ s (execAdd a b c s)
    unfold execAdd
    refine execShape_ternary (by simp [Instr.mnemonic]) fun h => ?_
    rcases writeResult_cases s s.cfg.arithOverflow _ a.toNat _ with ⟨_, e⟩ | ⟨hp, e⟩ <;> rw [e]
    · exact .write a _ h rfl
    · exact .overflow (.inl ⟨.inl rfl, hp.1⟩)
  | mul a b c =>
    change ExecShape _ s (execMul a b c s)
    unfold execMul
    refine execShape_ternary (by simp [Instr.mnemonic]) fun h => ?_
    rcases writeResult_cases s s.cfg.arithOverflow _ a.toNat _ with ⟨_, e⟩ | ⟨hp, e⟩ <;> rw [e]
    · exact .write a _ h rfl
    · exact .overflow (.inl ⟨.inr rfl, hp.1⟩)
  | div a b c =>
    change ExecShape _ s (execDiv a b c s)
    unfold execDiv
    refine execShape_ternary (by simp [Instr.mnemonic]) fun h => ?_
    split
    · exact .zeroDivisor (.inl rfl)
    · rcases writeResult_cases s s.cfg.divOverflow _ a.toNat _ with ⟨_, e⟩ | ⟨hp, e⟩ <;> rw [e]
      · exact .write a _ h rfl
      · exact .overflow (.inr ⟨.inl rfl, hp.1⟩)
  | mod a b c =>
    change ExecShape _ s (execMod a b c s)
    unfold execMod
    refine execShape_ternary (by simp [Instr.mnemonic]) fun h => ?_
    split
    · exact .zeroDivisor (.inr rfl)
    · rcases writeResult_cases s s.cfg.divOverflow _ a.toNat _ with ⟨_, e⟩ | ⟨hp, e⟩ <;> rw [e]
      · exact .write a _ h rfl
      · exact .overflow (.inr ⟨.inr rfl, hp.1⟩)
  | out a b c =>
    change ExecShape _ s (execOut a b c s)
    unfold execOut
    exact execShape_checked (by simp [Instr.mnemonic]) fun h => .out a b c rfl h
  | sleep a b c =>
    change ExecShape _ s (execSleep a b c s)
    unfold execSleep
    exact execShape_checked (by simp [Instr.mnemonic]) fun h => .sleep a b c rfl h

end Sys2Proof.Machine
end

