-- ==== Sys2Proof/Laws/Loader.lean ====
section
/-! SUPPORT. What one step of each phase is, and every way a step of the Loader can answer. -/

namespace Sys2Proof.Machine

/-! ## The step by phase -/

theorem step_load {s : State} (h : s.phase = .load) : step s = loadStep s := by simp [step, h]

theorem step_run {s : State} (h : s.phase = .run) : step s = runStep s := by simp [step, h]

theorem step_halt {s : State} (h : s.phase = .halt) : step s = .next s := by simp [step, h]

/-! ## The Loader's answers -/

/-- A failed load reads nothing of a state but the parameters, `ip` and the earlier events. -/
theorem failLoad_congr {s u : State} (h : u.cfg = s.cfg ∧ u.ip = s.ip ∧ u.trace = s.trace)
    (c : FatalClass) (d : Diagnostic) : u.failLoad c d = s.failLoad c d := by
  simp [State.failLoad, State.takeFatal, h]

/-- The shapes of the answer of one IN transaction. The Loader never answers with a model fault. -/
inductive LoadShape (s : State) : Answer → Prop
  /-- R120: the load has failed, with the diagnostic of its class. -/
  | fail (c : FatalClass) (d : Diagnostic) :
      (c = .fileError ∧ d = .fileError) ∨ (c = .formatError ∧ ∃ f, d = .formatError f) →
      LoadShape s (.next (s.failLoad c d))
  /-- R119: the load has succeeded. -/
  | enter : s.loader.buffer = [] → headerBytes ≤ s.loader.consumed →
      s.program.length ≤ s.cfg.progCapacity → LoadShape s (.next (s.enterRun s.memorySize s.program))
  /-- R121: one byte taken, and the load goes on. -/
  | more (u : State) : u.cfg = s.cfg → u.phase = s.phase → u.status = s.status → u.ip = s.ip →
      u.trace = s.trace → LoadShape s (.next u)
  /-- R114, R117, U10. -/
  | refuse (r : Refusal) : LoadShape s (.refused r)

/-- Every answer of the Loader has one of the shapes. -/
theorem loadStep_shape (s : State) : LoadShape s (loadStep s) := by
  unfold loadStep
  split
  · exact .refuse _
  · split
    · exact .fail _ _ (.inl ⟨rfl, rfl⟩)
    · exact .refuse _
  · unfold endOfStream
    split
    · exact .fail _ _ (.inr ⟨rfl, _, rfl⟩)
    split
    · exact .fail _ _ (.inr ⟨rfl, _, rfl⟩)
    split
    · exact .refuse _
    · exact .enter (by simp_all) (by omega) (by omega)
  · next b rest _ =>
    generalize hu : (({ s with inPort := .opened (.bytes rest) } : State).keepByte b) = u
    have k1 : u.cfg = s.cfg := by subst hu; simp
    have k2 : u.phase = s.phase := by subst hu; simp
    have k3 : u.status = s.status := by subst hu; simp
    have k4 : u.ip = s.ip := by subst hu; simp
    have k5 : u.trace = s.trace := by subst hu; simp
    have ff : ∀ f, LoadShape s (.next (u.failFormat f)) := fun f => by
      rw [State.failFormat, failLoad_congr ⟨k1, k4, k5⟩]
      exact .fail _ _ (.inr ⟨rfl, _, rfl⟩)
    unfold afterByte
    split
    · unfold finishMagic
      split
      · exact .more _ (by simpa using k1) (by simpa using k2) (by simpa using k3)
          (by simpa using k4) (by simpa using k5)
      · exact ff _
    split
    · unfold finishSize
      dsimp only
      split
      · exact ff _
      split
      · exact .refuse _
      · exact .more _ (by simpa using k1) (by simpa using k2) (by simpa using k3)
          (by simpa using k4) (by simpa using k5)
    split
    · exact .more _ (by simpa using k1) (by simpa using k2) (by simpa using k3)
        (by simpa using k4) (by simpa using k5)
    · exact .more _ k1 k2 k3 k4 k5

end Sys2Proof.Machine
end

