-- ==== Sys2Proof/Laws/PerInstr.lean ====
section
/-! SUPPORT. The families of statements made per instruction: the length of an encoding (R83) and its opcode
byte (R93). -/

namespace Sys2Proof.Laws.EncodedLength

/-- R83: one instruction length, 25 bytes, under every map. -/
def Statement (i : Instr) : Prop := ∀ map, (encode map i).length = recordBytes

theorem nop (a b c : Word) : Statement (.nop a b c) := fun map => encode_length map _
theorem set (a b c : Word) : Statement (.set a b c) := fun map => encode_length map _
theorem load (a b c : Word) : Statement (.load a b c) := fun map => encode_length map _
theorem store (a b c : Word) : Statement (.store a b c) := fun map => encode_length map _
theorem jmp (a b c : Word) : Statement (.jmp a b c) := fun map => encode_length map _
theorem sgz (a b c : Word) : Statement (.sgz a b c) := fun map => encode_length map _
theorem add (a b c : Word) : Statement (.add a b c) := fun map => encode_length map _
theorem mul (a b c : Word) : Statement (.mul a b c) := fun map => encode_length map _
theorem div (a b c : Word) : Statement (.div a b c) := fun map => encode_length map _
theorem mod (a b c : Word) : Statement (.mod a b c) := fun map => encode_length map _
theorem out (a b c : Word) : Statement (.out a b c) := fun map => encode_length map _
theorem sleep (a b c : Word) : Statement (.sleep a b c) := fun map => encode_length map _

end Sys2Proof.Laws.EncodedLength

namespace Sys2Proof.Laws.EncodedOpcode

/-- R93: the first byte of an encoding is the operation's byte under the map. -/
def Statement (i : Instr) : Prop := ∀ map, (encode map i).head? = some (map.code i.mnemonic)

theorem nop (a b c : Word) : Statement (.nop a b c) := fun _ => rfl
theorem set (a b c : Word) : Statement (.set a b c) := fun _ => rfl
theorem load (a b c : Word) : Statement (.load a b c) := fun _ => rfl
theorem store (a b c : Word) : Statement (.store a b c) := fun _ => rfl
theorem jmp (a b c : Word) : Statement (.jmp a b c) := fun _ => rfl
theorem sgz (a b c : Word) : Statement (.sgz a b c) := fun _ => rfl
theorem add (a b c : Word) : Statement (.add a b c) := fun _ => rfl
theorem mul (a b c : Word) : Statement (.mul a b c) := fun _ => rfl
theorem div (a b c : Word) : Statement (.div a b c) := fun _ => rfl
theorem mod (a b c : Word) : Statement (.mod a b c) := fun _ => rfl
theorem out (a b c : Word) : Statement (.out a b c) := fun _ => rfl
theorem sleep (a b c : Word) : Statement (.sleep a b c) := fun _ => rfl

end Sys2Proof.Laws.EncodedOpcode
end

