-- ==== Sys2Proof/Tests/Slice0.lean ====
section
/-! SUPPORT. The checks' smoke tests, the decoding of one word per operation written out from the spec, single
steps from 95_test_vectors.md (the vector is named in each docstring), and for every statement with hypotheses a
witness: concrete states and operands that meet them. -/

namespace Sys2Proof.Tests

open Sys2Proof Sys2Proof.Machine Sys2Proof.Spec

/-! ## Helpers -/

/-- The memory `[v0, v1, ...]` of a vector, from cell `a`. -/
def cellsFrom : Nat → List Int → Memory
  | _, [] => []
  | a, v :: rest =>
    if v = 0 then cellsFrom (a + 1) rest else (a, BitVec.ofInt 64 v) :: cellsFrom (a + 1) rest

/-- The state before a single-step vector: `M`, `ip`, and `N` records, all NOP. -/
def start (m : List Int) (ip : Nat := 0) (n : Nat := 4) : State :=
  { State.reset with
    phase := .run, inPort := .released, ip := BitVec.ofNat 64 ip,
    memorySize := BitVec.ofNat 32 m.length, mem := cellsFrom 0 m,
    program := List.replicate n (recordOfInstr defaultOpcodeMap (.nop 0 0 0)) }

/-- The next state of an answer. -/
def nextOf : Answer → Option State
  | .next t => some t
  | .fault _ => none
  | .refused _ => none

/-- What a vector's row shows after the step: the cells, `ip`, the phase, `status`, the events. -/
def row (m : List Int) (ip : Nat) (events : List Event) (phase : Phase := .run) (status : Nat := 0) :
    Option (Memory × Nat × Phase × Nat × List Event) :=
  some (cellsFrom 0 m, ip, phase, status, events)

/-- The same, of an answer. -/
def seen (a : Answer) : Option (Memory × Nat × Phase × Nat × List Event) :=
  (nextOf a).map fun t => (t.mem, t.ip.toNat, t.phase, t.status, t.trace)

/-- The fault settings of R210. -/
def faulting (s : State) : State :=
  { s with cfg := { s.cfg with arithOverflow := .fault, divOverflow := .fault } }

/-- Another legal OPCODE_MAP: the default's bytes from the top. -/
def topMap : OpcodeMap where
  nop := 0xFF
  set := 0xFE
  load := 0xFD
  store := 0xFC
  jmp := 0xFB
  sgz := 0xFA
  add := 0xF9
  mul := 0xF8
  div := 0xF7
  mod := 0xF6
  out := 0xF5
  sleep := 0xF4

/-! ## The checks refuse what is ill-formed (every instruction is well-formed, R86 and R89) -/

theorem test_wf_map_repeated_byte : ¬ ({ defaultOpcodeMap with mod := 0x08 } : OpcodeMap).wf := by decide
theorem test_wf_memCapacity : ¬ ({ defaultConfig with memCapacity := 2 ^ 32 } : Config).wf := by decide
theorem test_wf_progCapacity : ¬ ({ defaultConfig with progCapacity := 2 ^ 63 } : Config).wf := by decide
theorem test_wf_status_zero : ¬ ({ defaultConfig.statusCodes with fileError := 0 } : StatusCodes).wf := by decide
theorem test_wf_status_repeated : ¬ ({ defaultConfig.statusCodes with formatError := 3 } : StatusCodes).wf := by
  decide
theorem test_wf_config_map :
    ¬ ({ defaultConfig with opcodeMap := { defaultOpcodeMap with sgz := 0x04 } } : Config).wf := by decide
theorem test_wf_container_no_cell : ¬ ({ memorySize := 0, program := [] } : Container).wf := by decide
theorem test_wf_memory_order : ¬ Memory.wf [(1, 5), (0, 7)] := by decide
theorem test_wf_memory_zero : ¬ Memory.wf [(0, 0)] := by decide
theorem test_wf_default : defaultConfig.wf := by decide

/-! ## Decoding: one word for each operation, byte by byte as R84 lays a record out -/

/-- Vector E1. -/
theorem test_decode_nop : decodeTableWord 200 0x00 = some (.nop 0 0 0) := by decide
/-- Vector E3. -/
theorem test_decode_set : (decode defaultOpcodeMap
    [0x01, 0x01, 0, 0, 0, 0, 0, 0, 0, 0xFF, 0xFF, 0xFF, 0xFF, 0xFF, 0xFF, 0xFF, 0xFF,
     0, 0, 0, 0, 0, 0, 0, 0]).toOption = some (.set 1 (-1) 0) := by decide
/-- LOAD(3, 0) of the source's example S2. -/
theorem test_decode_load : (decode defaultOpcodeMap
    [0x02, 0x03, 0, 0, 0, 0, 0, 0, 0, 0, 0, 0, 0, 0, 0, 0, 0, 0, 0, 0, 0, 0, 0, 0, 0]).toOption =
    some (.load 3 0 0) := by decide
/-- STORE(0, 1) of vector V20. -/
theorem test_decode_store : (decode defaultOpcodeMap
    [0x03, 0, 0, 0, 0, 0, 0, 0, 0, 0x01, 0, 0, 0, 0, 0, 0, 0, 0, 0, 0, 0, 0, 0, 0, 0]).toOption =
    some (.store 0 1 0) := by decide
/-- Program P2, record 9. -/
theorem test_decode_jmp : (decode defaultOpcodeMap
    [0x04, 0x05, 0, 0, 0, 0, 0, 0, 0, 0, 0, 0, 0, 0, 0, 0, 0, 0, 0, 0, 0, 0, 0, 0, 0]).toOption =
    some (.jmp 5 0 0) := by decide
/-- Program P2, record 8. -/
theorem test_decode_sgz : decodeTableWord 8 0x05 = some (.sgz 0 0 0) := by decide
/-- Vector E4. -/
theorem test_decode_add : (decode defaultOpcodeMap
    [0x06, 0x03, 0, 0, 0, 0, 0, 0, 0, 0, 0, 0, 0, 0, 0, 0, 0, 0x02, 0, 0, 0, 0, 0, 0, 0]).toOption =
    some (.add 3 0 2) := by decide
/-- MUL(0, 1, 2) of R203's example. -/
theorem test_decode_mul : (decode defaultOpcodeMap
    [0x07, 0, 0, 0, 0, 0, 0, 0, 0, 0x01, 0, 0, 0, 0, 0, 0, 0, 0x02, 0, 0, 0, 0, 0, 0, 0]).toOption =
    some (.mul 0 1 2) := by decide
/-- DIV(0, 1, 2) of R204's example, as the word of R85: op2 from bit 72, op3 from bit 136. -/
theorem test_decode_div : decodeTableWord 200 (0x08 + 1 * 2 ^ 72 + 2 * 2 ^ 136) = some (.div 0 1 2) := by
  decide
/-- Vector E12. -/
theorem test_decode_mod : (decode defaultOpcodeMap
    [0x09, 0, 0, 0, 0, 0, 0, 0, 0, 0, 0, 0, 0, 0, 0, 0, 0, 0x01, 0, 0, 0, 0, 0, 0, 0]).toOption =
    some (.mod 0 0 1) := by decide
/-- Program P2, record 6. -/
theorem test_decode_out : (decode defaultOpcodeMap
    [0x0A, 0x03, 0, 0, 0, 0, 0, 0, 0, 0, 0, 0, 0, 0, 0, 0, 0, 0, 0, 0, 0, 0, 0, 0, 0]).toOption =
    some (.out 3 0 0) := by decide
/-- Vector E11. -/
theorem test_decode_sleep : decodeTableWord 200 0x0B = some (.sleep 0 0 0) := by decide

/-- Vector E9: an operand of 2^32 loses no bit. -/
theorem test_decode_wide : (decode defaultOpcodeMap
    [0x01, 0, 0, 0, 0, 0x01, 0, 0, 0, 0x01, 0, 0, 0, 0, 0, 0, 0, 0, 0, 0, 0, 0, 0, 0, 0]).toOption =
    some (.set 4294967296 1 0) := by decide
/-- R89: the first unassigned byte is refused by name; R83: so are 24 bytes. -/
theorem test_decode_refused :
    (match decode defaultOpcodeMap (0x0C :: List.replicate 24 0) with
     | .error e => e = .unknownOpcode 0x0C
     | .ok _ => False) ∧
    (match decode defaultOpcodeMap (List.replicate 24 0) with
     | .error e => e = .notARecord 24
     | .ok _ => False) := ⟨rfl, rfl⟩
/-- "Under another OPCODE_MAP only the first byte of each row changes": E4 under `topMap`. -/
theorem test_encode_other_map : encode topMap (.add 3 0 2) =
    [0xF9, 0x03, 0, 0, 0, 0, 0, 0, 0, 0, 0, 0, 0, 0, 0, 0, 0, 0x02, 0, 0, 0, 0, 0, 0, 0] := by decide
/-- Vector E6. -/
theorem test_encode_set : encode defaultOpcodeMap (.set 1 (-5) 0) =
    [0x01, 0x01, 0, 0, 0, 0, 0, 0, 0, 0xFB, 0xFF, 0xFF, 0xFF, 0xFF, 0xFF, 0xFF, 0xFF,
     0, 0, 0, 0, 0, 0, 0, 0] := by decide

/-! ## Single steps -/

/-- V97. -/
theorem test_nop : seen (exec (.nop 7 (-7) 99) (start [5])) = row [5] 1 [] := by decide
/-- V2. -/
theorem test_set : seen (exec (.set 2 (-1) 0) (start [0, 0, 0])) = row [0, 0, -1] 1 [] := by decide
/-- V7: 2^32 does not alias cell 0. -/
theorem test_set_wide : seen (exec (.set 4294967296 1 0) (start [0, 0])) =
    row [0, 0] 0 [.diag (.addressError 0 .memIndex 4294967296)] .halt 3 := by decide
/-- V10, the source's example S2. -/
theorem test_load : seen (exec (.load 3 0 0) (start [2, 5, 99, 0, 0])) = row [2, 5, 99, 99, 0] 1 [] := by
  decide
/-- V13: the index found in the pointer cell is `memorySize`. -/
theorem test_load_pointer : seen (exec (.load 0 1 0) (start [0, 3, 0])) =
    row [0, 3, 0] 0 [.diag (.addressError 0 .memIndex 3)] .halt 3 := by decide
/-- V20. -/
theorem test_store : seen (exec (.store 0 1 0) (start [2, 77, 0])) = row [2, 77, 77] 1 [] := by decide
/-- V22: one cell is pointer and source. -/
theorem test_store_alias : seen (exec (.store 0 0 0) (start [1, 5])) = row [1, 1] 1 [] := by decide
/-- V30, the source's example S3. -/
theorem test_jmp : seen (exec (.jmp 0 0 0) (start [2] 1)) = row [2] 2 [] := by decide
/-- V34: target `N` is fatal. -/
theorem test_jmp_to_end : seen (exec (.jmp 0 0 0) (start [4])) =
    row [4] 0 [.diag (.addressError 0 .jumpTarget 4)] .halt 3 := by decide
/-- V43. -/
theorem test_sgz_skips : seen (exec (.sgz 0 0 0) (start [9223372036854775807] 3)) =
    row [9223372036854775807] 5 [] := by decide
/-- V44. -/
theorem test_sgz_negative : seen (exec (.sgz 0 0 0) (start [-9223372036854775808] 3)) =
    row [-9223372036854775808] 4 [] := by decide
/-- A5. -/
theorem test_add_wraps : seen (exec (.add 0 1 2) (start [111, 9223372036854775807, 1])) =
    row [-9223372036854775808, 9223372036854775807, 1] 1 [] := by decide
/-- V60: all three operands one cell. -/
theorem test_add_alias : seen (exec (.add 0 0 0) (start [21])) = row [42] 1 [] := by decide
/-- A9. -/
theorem test_mul_wraps : seen (exec (.mul 0 1 2) (start [111, 3037000500, 3037000500])) =
    row [-9223372036709301616, 3037000500, 3037000500] 1 [] := by decide
/-- A2. -/
theorem test_mul_signs : seen (exec (.mul 0 1 2) (start [111, -7, 2])) = row [-14, -7, 2] 1 [] := by decide
/-- A2: toward zero. -/
theorem test_div : seen (exec (.div 0 1 2) (start [111, -7, 2])) = row [-3, -7, 2] 1 [] := by decide
/-- V66, the source's example S5: the destination keeps 42. -/
theorem test_div_zero : seen (exec (.div 0 1 2) (start [42, 0, 0])) =
    row [42, 0, 0] 1 [.diag (.arithmeticError 0 .div)] := by decide
/-- A3: the sign of the dividend. -/
theorem test_mod : seen (exec (.mod 0 1 2) (start [111, 7, -2])) = row [1, 7, -2] 1 [] := by decide
/-- V70: a bad divisor address is fatal, whatever the divisor. -/
theorem test_mod_address : seen (exec (.mod 0 1 (-1)) (start [0, 0, 0])) =
    row [0, 0, 0] 0 [.diag (.addressError 0 .memIndex (-1))] .halt 3 := by decide
/-- V85: -191 mod 256 is 65. -/
theorem test_out : seen (exec (.out 0 0 0) (start [-191])) = row [-191] 1 [.out 65] := by decide
/-- V86: no byte is emitted. -/
theorem test_out_address : seen (exec (.out 1 0 0) (start [65])) =
    row [65] 0 [.diag (.addressError 0 .memIndex 1)] .halt 3 := by decide
/-- V92: the raw value is carried. -/
theorem test_sleep : seen (exec (.sleep 0 0 0) (start [-5])) = row [-5] 1 [.sleep (-5)] := by decide
/-- V94: the operand is an address. -/
theorem test_sleep_address : seen (exec (.sleep (-1) 0 0) (start [5])) =
    row [5] 0 [.diag (.addressError 0 .memIndex (-1))] .halt 3 := by decide

/-- V96, through the fetch: OP_0xFF(-1, -1, -1). -/
theorem test_unknown_opcode : seen (step
    { start [5] with program := [{ opcode := 0xFF, op1 := -1, op2 := -1, op3 := -1 }] }) =
    row [5] 1 [.diag (.unknownOpcodeError 0 0xFF)] := by decide
/-- V99. -/
theorem test_past_the_end : seen (step (start [0] 5)) = row [0] 5 [] .halt 0 := by decide
/-- The first step after placing SET(0, 65), vector E2. -/
theorem test_withFetchWord : seen (step (State.reset.withFetchWord 200 (0x01 + 65 * 2 ^ 72))) =
    row [65] 1 [] := by decide

/-! ## The Loader -/

/-- L0, L1, L2a, L2d, L2e, L2f. -/
theorem test_load_magic :
    loadInput defaultConfig .unavailable = .fail .fileError .fileError ∧
    loadBytes defaultConfig [] = .fail .formatError (.formatError .truncatedHeader) ∧
    loadBytes defaultConfig [0x58, 0x59] = .fail .formatError (.formatError .truncatedHeader) ∧
    loadBytes defaultConfig [0x4F, 0x52, 0x42] = .fail .formatError (.formatError .badMagic) ∧
    loadBytes defaultConfig [0x6F, 0x72, 0x63, 1, 0, 0, 0] = .fail .formatError (.formatError .badMagic) ∧
    loadBytes defaultConfig [0x4F, 0x52, 0x42, 0, 0, 0, 0] = .fail .formatError (.formatError .badMagic) := by
  decide
/-- L3, L4a, L5a, L5b. -/
theorem test_load_size :
    loadBytes defaultConfig [0x4F, 0x52, 0x43, 1, 0, 0, 0] = .ok 1 [] ∧
    loadBytes defaultConfig ([0x4F, 0x52, 0x43, 0, 0, 0, 0] ++ List.replicate 25 0) =
      .fail .formatError (.formatError .zeroMemorySize) ∧
    loadBytes defaultConfig [0x4F, 0x52, 0x43, 0x78, 0x56, 0x34, 0x12] = .ok 305419896 [] ∧
    loadBytes defaultConfig [0x4F, 0x52, 0x43, 0xFF, 0xFF, 0xFF, 0xFF] = .ok 4294967295 [] ∧
    loadBytes { defaultConfig with memCapacity := 255 } [0x4F, 0x52, 0x43, 0, 1, 0, 0] =
      .refuse .memCapacityExceeded := by decide
/-- L6, L7a, L9, L12. -/
theorem test_load_records :
    loadBytes defaultConfig [0x4F, 0x52, 0x43, 1, 0, 0, 0, 0] =
      .fail .formatError (.formatError .truncatedRecord) ∧
    loadBytes defaultConfig ([0x4F, 0x52, 0x43, 1, 0, 0, 0] ++ List.replicate 24 0) =
      .fail .formatError (.formatError .truncatedRecord) ∧
    loadBytes defaultConfig ([0x4F, 0x52, 0x43, 1, 0, 0, 0] ++ List.replicate 26 0) =
      .fail .formatError (.formatError .truncatedRecord) ∧
    loadBytes defaultConfig ([0x4F, 0x52, 0x43, 1, 0, 0, 0] ++ List.replicate 25 0xFF) =
      .ok 1 [{ opcode := 0xFF, op1 := -1, op2 := -1, op3 := -1 }] := by decide

/-! ## Witnesses: each statement's hypotheses are met together, clause by clause, at boundary values -/

/-- A sound engine in phase LOAD whose stream ends inside the header. -/
def midHeader : State :=
  { State.reset with inPort := .opened (.bytes []), loader := { consumed := 3, buffer := [] } }

/-- A sound engine in phase LOAD that has accepted a header of one cell, at end-of-stream. -/
def headerOnly : State :=
  { State.reset with
    memorySize := 1, inPort := .opened (.bytes []), loader := { consumed := 7, buffer := [] } }

/-- A one-record program that jumps to itself: program P10 and vector V38. -/
def selfJump : State :=
  { start [0] 0 1 with program := [recordOfInstr defaultOpcodeMap (.jmp 0 0 0)] }

theorem midHeader_inv : midHeader.Inv :=
  ⟨by decide, by decide, by decide, by decide, by decide, by decide, by decide, fun _ => .inl rfl,
   by decide, fun _ => ⟨by decide, by decide, by decide, by decide, by decide, by decide⟩, by decide, by decide⟩

theorem headerOnly_inv : headerOnly.Inv :=
  ⟨by decide, by decide, by decide, by decide, by decide, by decide, by decide, fun _ => .inl rfl,
   by decide, fun _ => ⟨by decide, by decide, by decide, by decide, by decide, by decide⟩, by decide, by decide⟩

/-- A running engine with a nonzero cell. -/
theorem running_inv : (start [5, -1] 3).Inv :=
  ⟨by decide, by decide, by decide, by decide, by decide, by decide, by decide, fun _ => .inl rfl,
   by decide, fun h => absurd h (by decide), by decide, by decide⟩

theorem witness_DecodeInvertsEncode :
    defaultOpcodeMap.wf ∧ topMap.wf ∧ (Instr.load 3 0 (-1)).wf = true := by decide

theorem witness_EncodeInvertsDecode :
    decode topMap (0xF9 :: List.replicate 24 0xFF) = .ok (.add (-1) (-1) (-1)) := rfl

theorem witness_OpcodeByteAloneSelects :
    (defaultOpcodeMap.wf ∧ defaultOpcodeMap.code .sleep = 0x0B) ∧
    (∀ m, defaultOpcodeMap.code m ≠ 0x0C) ∧ (∀ m, topMap.code m ≠ 0xF3) :=
  ⟨by decide, fun m => by cases m <;> decide, fun m => by cases m <;> decide⟩

theorem witness_RecordFieldsAreBitSlices : (2 ^ 200 - 1 : Nat) < 2 ^ 200 := by decide

/-- At the capacities exactly. -/
theorem witness_ContainerLoads : ∃ (cfg : Config) (c : Container), c.wf ∧ c.program ≠ [] ∧
    c.memorySize.toNat = cfg.memCapacity ∧ c.program.length = cfg.progCapacity :=
  ⟨{ defaultConfig with memCapacity := 2, progCapacity := 1 },
   { memorySize := 2, program := [recordOfInstr defaultOpcodeMap (.set 0 65 0)] }, by decide⟩

theorem witness_StreamingLoadIsTheLoadFunction : ∃ (s : State) (input : Input), s.phase = .load ∧
    s.loader = LoaderState.initial ∧ s.program = [] ∧ s.inPort = .opened input ∧
    loadTime input = 8 :=
  ⟨State.reset.hostReset (.bytes [0x4F, 0x52, 0x43, 1, 0, 0, 0]), _, rfl, rfl, rfl, rfl, rfl⟩

theorem witness_AcceptedStreamIsWellFormed :
    loadBytes defaultConfig ([0x4F, 0x52, 0x43, 1, 0, 0, 0] ++ List.replicate 50 0) =
      .ok 1 [recordOfInstr defaultOpcodeMap (.nop 0 0 0), recordOfInstr defaultOpcodeMap (.nop 0 0 0)] := by
  decide

/-- The seven clauses: L2a; L2d; L2b and L2c; L4; one cell more than MEM_CAPACITY; L6 and L7a with a size of exactly
MEM_CAPACITY; two records where PROG_CAPACITY is one. -/
theorem witness_MalformedStreamsFail :
    ([0x58, 0x59] : List Byte).length < 3 ∧
    (3 ≤ ([0x4F, 0x52, 0x42] : List Byte).length ∧
      ([0x4F, 0x52, 0x42] : List Byte).take 3 ≠ [0x4F, 0x52, 0x43]) ∧
    (∀ b ∈ ([[0x4F, 0x52, 0x43], [0x4F, 0x52, 0x43, 1, 0, 0]] : List (List Byte)),
      3 ≤ b.length ∧ b.take 3 = [0x4F, 0x52, 0x43] ∧ b.length < 7) ∧
    (7 ≤ ([0x4F, 0x52, 0x43, 0, 0, 0, 0] : List Byte).length ∧
      ([0x4F, 0x52, 0x43, 0, 0, 0, 0] : List Byte).take 3 = [0x4F, 0x52, 0x43] ∧
      headerSize [0x4F, 0x52, 0x43, 0, 0, 0, 0] = 0) ∧
    (7 ≤ ([0x4F, 0x52, 0x43, 0, 1, 0, 0] : List Byte).length ∧
      ([0x4F, 0x52, 0x43, 0, 1, 0, 0] : List Byte).take 3 = [0x4F, 0x52, 0x43] ∧
      ({ defaultConfig with memCapacity := 255 } : Config).memCapacity <
        headerSize [0x4F, 0x52, 0x43, 0, 1, 0, 0]) ∧
    (∀ k ∈ [1, 24], ∀ b ∈ [([0x4F, 0x52, 0x43, 1, 0, 0, 0] : List Byte) ++ List.replicate k 0],
      7 ≤ b.length ∧ b.take 3 = [0x4F, 0x52, 0x43] ∧ headerSize b ≠ 0 ∧
      headerSize b = ({ defaultConfig with memCapacity := 1 } : Config).memCapacity ∧
      (b.length - 7) % 25 ≠ 0) ∧
    (∀ b ∈ [([0x4F, 0x52, 0x43, 1, 0, 0, 0] : List Byte) ++ List.replicate 50 0],
      7 ≤ b.length ∧ b.take 3 = [0x4F, 0x52, 0x43] ∧ headerSize b ≠ 0 ∧
      headerSize b ≤ defaultConfig.memCapacity ∧ (b.length - 7) % 25 = 0 ∧
      ({ defaultConfig with progCapacity := 1 } : Config).progCapacity < (b.length - 7) / 25) := by decide

theorem witness_UnavailableInputIsFileError : State.reset.phase = .load ∧
    State.reset.inPort = .opened .unavailable ∧ State.reset.loader.consumed = 0 := by decide

theorem witness_LoadFailureEndsTheRun :
    midHeader.Inv ∧ midHeader.phase = .load ∧ ∃ t, step midHeader = .next t ∧ t.phase = .halt :=
  ⟨midHeader_inv, rfl, _, rfl, rfl⟩

theorem witness_LoadSuccessStartsTheRun :
    headerOnly.Inv ∧ headerOnly.phase = .load ∧ ∃ t, step headerOnly = .next t ∧ t.phase = .run :=
  ⟨headerOnly_inv, rfl, _, rfl, rfl⟩

theorem witness_StepRunsTheDecodedInstruction : selfJump.phase = .run ∧
    selfJump.program[selfJump.ip.toNat]? = some (recordOfInstr defaultOpcodeMap (.jmp 0 0 0)) ∧
    decodeRecord selfJump.cfg.opcodeMap (recordOfInstr defaultOpcodeMap (.jmp 0 0 0)) =
      .ok (.jmp 0 0 0) ∧ (Instr.jmp 0 0 0).wf = true := ⟨rfl, rfl, rfl, rfl⟩

/-- At `N` and at `N + 1`. -/
theorem witness_FetchPastTheEndHaltsNormally :
    ((start [0] 4).phase = .run ∧ (start [0] 4).program.length ≤ (start [0] 4).ip.toNat) ∧
    ((start [0] 5).phase = .run ∧ (start [0] 5).program.length ≤ (start [0] 5).ip.toNat) := by decide

theorem witness_UnknownOpcodeIsSteppedOver : ∃ (s : State) (r : Record), s.phase = .run ∧
    s.program[s.ip.toNat]? = some r ∧ ∀ m, s.cfg.opcodeMap.code m ≠ r.opcode :=
  ⟨{ start [5] with program := [{ opcode := 0x0C, op1 := 9, op2 := 9, op3 := 9 }] }, _, rfl, rfl,
   fun m => by cases m <;> decide⟩

theorem witness_HaltedEngineStaysPut :
    ({ start [0] with phase := .halt, status := 3 } : State).phase = .halt := rfl

theorem witness_HostResetStartsAnew : (start [5] 2).cfg.wf ∧ State.reset.cfg = (start [5] 2).cfg := by
  decide

/-- In phase RUN and in phase LOAD. -/
theorem witness_StepKeepsSoundness :
    ((start [5, -1] 3).Inv ∧ ∃ t, step (start [5, -1] 3) = .next t) ∧
    (midHeader.Inv ∧ ∃ t, step midHeader = .next t) :=
  ⟨⟨running_inv, _, rfl⟩, midHeader_inv, _, rfl⟩

/-- The last cell; `memorySize` itself. -/
theorem witness_SetWritesTheImmediate :
    (start [0, 0, 0]).inRange 2 ∧ ¬ (start [0, 0, 0]).inRange 3 := by decide

/-- The four clauses, on V10, V15, V17 and V13. -/
theorem witness_LoadReadsThroughThePointer :
    ((start [2, 5, 99, 0, 0]).inRange 3 ∧ (start [2, 5, 99, 0, 0]).inRange 0 ∧
      (start [2, 5, 99, 0, 0]).inRange ((start [2, 5, 99, 0, 0]).readCell 0)) ∧
    ¬ (start [0, 0, 0]).inRange 3 ∧
    ((start [0, 0, 0]).inRange 0 ∧ ¬ (start [0, 0, 0]).inRange 5) ∧
    ((start [0, 3, 0]).inRange 0 ∧ (start [0, 3, 0]).inRange 1 ∧
      ¬ (start [0, 3, 0]).inRange ((start [0, 3, 0]).readCell 1)) := by decide

/-- The four clauses, on V20, V25, V26 and V24. -/
theorem witness_StoreWritesThroughThePointer :
    ((start [2, 77, 0]).inRange 0 ∧ (start [2, 77, 0]).inRange 1 ∧
      (start [2, 77, 0]).inRange ((start [2, 77, 0]).readCell 0)) ∧
    ¬ (start [0, 0]).inRange 2 ∧
    ((start [0, 0]).inRange 0 ∧ ¬ (start [0, 0]).inRange 2) ∧
    ((start [-3, 77]).inRange 0 ∧ (start [-3, 77]).inRange 1 ∧
      ¬ (start [-3, 77]).inRange ((start [-3, 77]).readCell 0)) := by decide

/-- Targets 0 and `N - 1`; `N` and -1; a bad operand: V32, V33, V34, V35, V36. -/
theorem witness_JmpGoesToTheCellsValue :
    ((start [0] 3).inRange 0 ∧ 0 ≤ cell (start [0] 3) 0 ∧
      cell (start [0] 3) 0 < ((start [0] 3).program.length : Int)) ∧
    ((start [3]).inRange 0 ∧ 0 ≤ cell (start [3]) 0 ∧
      cell (start [3]) 0 < ((start [3]).program.length : Int)) ∧
    ((start [4]).inRange 0 ∧
      ¬ (0 ≤ cell (start [4]) 0 ∧ cell (start [4]) 0 < ((start [4]).program.length : Int))) ∧
    ((start [-1]).inRange 0 ∧
      ¬ (0 ≤ cell (start [-1]) 0 ∧ cell (start [-1]) 0 < ((start [-1]).program.length : Int))) ∧
    ¬ (start [0]).inRange 1 := by decide

/-- 1; 0 and INT64_MIN; a bad operand: V40, V41, V44, V46. -/
theorem witness_SgzSkipsOneIfPositive :
    ((start [1]).inRange 0 ∧ 0 < cell (start [1]) 0) ∧
    ((start [0]).inRange 0 ∧ cell (start [0]) 0 ≤ 0) ∧
    ((start [-9223372036854775808]).inRange 0 ∧ cell (start [-9223372036854775808]) 0 ≤ 0) ∧
    ¬ (start [1]).inRange 1 := by decide

/-- Three cells in range: `[111, a, b]`. -/
abbrev ternary (s : State) : Prop := s.inRange 0 ∧ s.inRange 1 ∧ s.inRange 2

/-- Under `wrap` with an overflowing sum, under `fault` with the largest sum that fits, and under `fault` with
the smallest that does not. -/
theorem witness_AddWritesTheWrappedSum :
    (ternary (start [111, 9223372036854775807, 1]) ∧
      (start [111, 9223372036854775807, 1]).cfg.arithOverflow = .wrap) ∧
    (ternary (faulting (start [111, 9223372036854775807, 0])) ∧
      inInt64 (cell (start [111, 9223372036854775807, 0]) 1 + cell (start [111, 9223372036854775807, 0]) 2)) ∧
    (ternary (faulting (start [111, 9223372036854775807, 1])) ∧
      (faulting (start [111, 9223372036854775807, 1])).cfg.arithOverflow = .fault ∧
      ¬ inInt64 (cell (start [111, 9223372036854775807, 1]) 1 +
        cell (start [111, 9223372036854775807, 1]) 2)) := by unfold inInt64; decide

/-- As for ADD, with 2^62 * 2 and 2^62 * -2. -/
theorem witness_MulWritesTheWrappedProduct :
    (ternary (start [111, 4611686018427387904, 2]) ∧
      (start [111, 4611686018427387904, 2]).cfg.arithOverflow = .wrap) ∧
    (ternary (faulting (start [111, 4611686018427387904, -2])) ∧
      inInt64 (cell (start [111, 4611686018427387904, -2]) 1 *
        cell (start [111, 4611686018427387904, -2]) 2)) ∧
    (ternary (faulting (start [111, 4611686018427387904, 2])) ∧
      (faulting (start [111, 4611686018427387904, 2])).cfg.arithOverflow = .fault ∧
      ¬ inInt64 (cell (start [111, 4611686018427387904, 2]) 1 *
        cell (start [111, 4611686018427387904, 2]) 2)) := by unfold inInt64; decide

/-- INT64_MIN by -1 under both settings, and INT64_MIN by 1 under `fault`. -/
theorem witness_DivWritesTheTruncatedQuotient :
    (ternary (start [111, -9223372036854775808, -1]) ∧
      cell (start [111, -9223372036854775808, -1]) 2 ≠ 0 ∧
      (start [111, -9223372036854775808, -1]).cfg.divOverflow = .wrap) ∧
    (ternary (faulting (start [111, -9223372036854775808, 1])) ∧
      cell (start [111, -9223372036854775808, 1]) 2 ≠ 0 ∧
      ¬ (cell (start [111, -9223372036854775808, 1]) 1 = -2 ^ 63 ∧
        cell (start [111, -9223372036854775808, 1]) 2 = -1)) ∧
    (ternary (faulting (start [111, -9223372036854775808, -1])) ∧
      (faulting (start [111, -9223372036854775808, -1])).cfg.divOverflow = .fault ∧
      cell (start [111, -9223372036854775808, -1]) 1 = -2 ^ 63 ∧
      cell (start [111, -9223372036854775808, -1]) 2 = -1) := by decide

/-- The hypotheses of MOD are those of DIV: here a dividend of mixed sign, and the same three boundaries. -/
theorem witness_ModWritesTheRemainder :
    (ternary (start [111, -7, 2]) ∧ cell (start [111, -7, 2]) 2 ≠ 0 ∧
      (start [111, -7, 2]).cfg.divOverflow = .wrap) ∧
    (ternary (faulting (start [111, -9223372036854775807, -1])) ∧
      cell (start [111, -9223372036854775807, -1]) 2 ≠ 0 ∧
      ¬ (cell (start [111, -9223372036854775807, -1]) 1 = -2 ^ 63 ∧
        cell (start [111, -9223372036854775807, -1]) 2 = -1)) ∧
    (ternary (faulting (start [111, -9223372036854775808, -1])) ∧
      (faulting (start [111, -9223372036854775808, -1])).cfg.divOverflow = .fault ∧
      cell (start [111, -9223372036854775808, -1]) 1 = -2 ^ 63 ∧
      cell (start [111, -9223372036854775808, -1]) 2 = -1) := by decide

theorem witness_ZeroDivisorIsRecoverable :
    ternary (start [42, 0, 0]) ∧ cell (start [42, 0, 0]) 2 = 0 := by decide

/-- The last cell; `memorySize` itself. -/
theorem witness_OutEmitsTheLowByte : (start [7, -191]).inRange 1 ∧ ¬ (start [7, -191]).inRange 2 := by decide

/-- The last cell; a negative address. -/
theorem witness_SleepEmitsTheRequest : (start [7, 250]).inRange 1 ∧ ¬ (start [7, 250]).inRange (-1) := by
  decide

/-- V65: the bad destination is named, the divisor is 0. -/
theorem witness_FirstBadOperandIsTheError :
    firstRejected (start [7, 0, 0, 0]) (addressOperands (.div 9 0 1)) = some 9 ∧
    firstRejected (start [0, 0, 0]) (addressOperands (.add 0 3 4)) = some 3 := by decide

theorem witness_QuotientAndRemainderFitTogether :
    ternary (start [111, -9223372036854775808, -1]) ∧
    cell (start [111, -9223372036854775808, -1]) 2 ≠ 0 ∧
    (start [111, -9223372036854775808, -1]).cfg.divOverflow = .wrap := by decide

theorem witness_AddAndMulCommute : (start [111, 2, 3]).inRange 1 ∧ (start [111, 2, 3]).inRange 2 := by decide

/-- The last cell; `memorySize` itself; a negative value; 2^32. -/
theorem witness_AddressTestIsFullWidth :
    (2 : Word).toNat < (start [0, 0, 0]).memorySize.toNat ∧
    (start [0, 0, 0]).memorySize.toNat ≤ (3 : Word).toNat ∧
    (-1 : Word).toInt < 0 ∧ 2 ^ 32 ≤ (4294967296 : Word).toNat := by decide

theorem witness_WriteReplacesOneCell : (0 : Nat) ≠ 1 := by decide

/-- A STORE at its target's neighbour, and an OUT at any cell. -/
theorem witness_OnlyTheDestinationCellChanges :
    ((∃ t, exec (.store 0 1 0) (start [2, 77, 0]) = .next t) ∧
      destinationCell (start [2, 77, 0]) (.store 0 1 0) ≠ some 1) ∧
    ((∃ t, exec (.out 0 0 0) (start [65]) = .next t) ∧
      destinationCell (start [65]) (.out 0 0 0) ≠ some 0) :=
  ⟨⟨⟨_, rfl⟩, by decide⟩, ⟨_, rfl⟩, by decide⟩

theorem witness_WrapSettingsNeverStop : (start [5]).wraps ∧ (start [5]).phase = .run := by decide

/-- A fault of each setting. -/
theorem witness_OnlyOverflowFaults :
    (∃ f, exec (.add 0 1 2) (faulting (start [111, 9223372036854775807, 1])) = .fault f) ∧
    (∃ f, exec (.div 0 1 2) (faulting (start [111, -9223372036854775808, -1])) = .fault f) :=
  ⟨⟨_, rfl⟩, ⟨_, rfl⟩⟩

theorem witness_FatalErrorsArePrecise : ∃ t, (start [0]).phase = .run ∧
    exec (.set 1 0 0) (start [0]) = .next t ∧ t.phase = .halt := ⟨_, rfl, rfl, rfl⟩

theorem witness_ProgramIsReadOnlyAfterLoading :
    (start [5]).phase ≠ .load ∧ ∃ t, step (start [5]) = .next t := ⟨by decide, _, rfl⟩

theorem witness_StepAppendsAtMostOneEvent : ∃ t, step midHeader = .next t ∧ t.trace.length = 1 :=
  ⟨_, rfl, rfl⟩

theorem witness_OpcodeMapIsImmaterial :
    defaultOpcodeMap.wf ∧ topMap.wf ∧ defaultOpcodeMap ≠ topMap ∧ (start [5]).phase = .run := by decide

/-- The three phases. -/
theorem witness_PhaseTransitions :
    ((∃ t, step (start [5]) = .next t) ∧ (start [5]).phase = .run) ∧
    (∃ t, step { start [5] with phase := .halt } = .next t) ∧
    (∃ t, step headerOnly = .next t ∧ headerOnly.phase = .load ∧ t.phase = .run) :=
  ⟨⟨⟨_, rfl⟩, rfl⟩, ⟨_, rfl⟩, _, rfl, rfl, rfl⟩

/-- A run that ends with 0, and one that ends with a nonzero status. -/
theorem witness_StatusZeroMeansTheProgramRanOut :
    ((start [0] 4).cfg.wf ∧ (start [0] 4).phase = .run ∧
      ∃ t, step (start [0] 4) = .next t ∧ t.phase = .halt ∧ t.status = 0) ∧
    (∃ t, step { selfJump with mem := cellsFrom 0 [1] } = .next t ∧ t.phase = .halt ∧ t.status = 3) :=
  ⟨⟨by decide, rfl, _, rfl, rfl, rfl⟩, _, rfl, rfl, rfl⟩

theorem witness_OnlyHaltingSetsStatus :
    ∃ t, step (start [5]) = .next t ∧ t.phase ≠ .halt := ⟨_, rfl, by decide⟩

/-- NOP, an SGZ at the last record on 1 and on 0, a JMP to the last record. -/
theorem witness_InstructionPointerUpdate :
    (∃ t, exec (.nop 0 0 0) (start [5]) = .next t ∧ t.phase = .run) ∧
    ((∃ t, exec (.sgz 0 0 0) (start [1] 3) = .next t ∧ t.phase = .run) ∧ 0 < cell (start [1] 3) 0) ∧
    ((∃ t, exec (.sgz 0 0 0) (start [0] 3) = .next t ∧ t.phase = .run) ∧ cell (start [0] 3) 0 ≤ 0) ∧
    (∃ t, exec (.jmp 0 0 0) (start [3]) = .next t ∧ t.phase = .run) :=
  ⟨⟨_, rfl, rfl⟩, ⟨⟨_, rfl, rfl⟩, by decide⟩, ⟨⟨_, rfl, rfl⟩, by decide⟩, _, rfl, rfl⟩

/-- A SLEEP, an OUT, a NOP. -/
theorem witness_PortsCarryTheirOwnEvents :
    (∃ t, exec (.sleep 0 0 0) (start [5]) = .next t) ∧
    (∃ t, exec (.out 0 0 0) (start [5]) = .next t) ∧
    (∃ t, exec (.nop 0 0 0) (start [5]) = .next t ∧ t.phase = (start [5]).phase) :=
  ⟨⟨_, rfl⟩, ⟨_, rfl⟩, _, rfl, rfl⟩

theorem witness_SelfJumpRunsForever : selfJump.phase = .run ∧
    selfJump.program[selfJump.ip.toNat]? = some (recordOfInstr defaultOpcodeMap (.jmp 0 0 0)) ∧
    decodeRecord selfJump.cfg.opcodeMap (recordOfInstr defaultOpcodeMap (.jmp 0 0 0)) =
      .ok (.jmp 0 0 0) ∧
    selfJump.inRange 0 ∧ selfJump.readCell 0 = selfJump.ip ∧ selfJump.program.length ≤ 2 ^ 63 :=
  ⟨rfl, rfl, rfl, by decide, by decide, by decide⟩

end Sys2Proof.Tests
end

section
/-! What one step of each phase leaves, said once, and the obligations of 10_state.md: the invariant of sound
states, the event trace, the phase and the status register, reset. -/

namespace Sys2Proof.Machine

/-! ## What a running engine's step leaves -/

/-- An advance past the end of the words wraps, so it never goes further than the exact sum. -/
theorem toNat_add_le (x y : Word) : (x + y).toNat ≤ x.toNat + y.toNat := by
  rw [BitVec.toNat_add]
  exact Nat.mod_le _ _

/-- A target that passes the test of JMP is the index of a record, however long the Program is. -/
theorem State.toNat_lt_of_isTarget {s : State} {t : Word} (h : s.isTarget t) :
    t.toNat < s.instructionCount := by
  obtain ⟨hnonneg, hlt⟩ := h
  rw [BitVec.toInt_eq_toNat_cond] at hnonneg hlt
  have := t.isLt
  split at hnonneg <;> omega

/-- `t` is what a running engine `s` may leave where it does not halt (R142): `ip` stays within R23, at most one
cell is written, at most one event is appended, and no other field changes. -/
structure GoesOn (s t : State) : Prop where
  cfg : t.cfg = s.cfg := by rfl
  phase : t.phase = s.phase := by rfl
  status : t.status = s.status := by rfl
  memorySize : t.memorySize = s.memorySize := by rfl
  program : t.program = s.program := by rfl
  inPort : t.inPort = s.inPort := by rfl
  loader : t.loader = s.loader := by rfl
  ip : t.ip.toNat ≤ s.instructionCount + 1
  mem : t.mem = s.mem ∨ ∃ a v, a < s.memorySize.toNat ∧ t.mem = s.mem.writeCell a v := by exact .inl rfl
  trace : t.trace = s.trace ∨ ∃ e, t.trace = s.trace ++ [e] := by exact .inl rfl

section
variable {s : State} (hip : s.ip.toNat < s.instructionCount)
include hip

theorem advance_ip_le : (s.ip + 1).toNat ≤ s.instructionCount + 1 :=
  (toNat_add_le s.ip 1).trans (Nat.add_le_add_right hip.le 1)

theorem goesOn_advance : GoesOn s s.advance where
  ip := advance_ip_le hip

theorem goesOn_skipNext : GoesOn s s.skipNext where
  ip := (toNat_add_le s.ip 2).trans (Nat.add_le_add_right hip 1)

theorem goesOn_emit_advance (e : Event) : GoesOn s (s.emit e).advance where
  ip := advance_ip_le hip
  trace := .inr ⟨e, rfl⟩

theorem goesOn_writeCell_advance {a : Word} (ha : s.inRange a) (v : Word) :
    GoesOn s (s.writeCell a.toNat v).advance where
  ip := advance_ip_le hip
  mem := .inr ⟨a.toNat, v, (s.inRange_iff a).1 ha, rfl⟩

/-- An instruction that was fetched goes on, or halts with AddressError. -/
theorem goesOn_or_addressError_of_exec {i : Instr} {t : State} (h : exec i s = .next t) :
    GoesOn s t ∨ ∃ k v, t = s.raiseAddressError k v := by
  have hshape := exec_shape i s
  rw [h] at hshape
  cases hshape with
  | advance => exact .inl (goesOn_advance hip)
  | noSkip => exact .inl (goesOn_advance hip)
  | skip => exact .inl (goesOn_skipNext hip)
  | jump _ _ _ _ _ htarget => exact .inl { ip := (State.toNat_lt_of_isTarget htarget).le.trans (by omega) }
  | write _ v ha => exact .inl (goesOn_writeCell_advance hip ha v)
  | out => exact .inl (goesOn_emit_advance hip _)
  | sleep => exact .inl (goesOn_emit_advance hip _)
  | zeroDivisor => exact .inl (goesOn_emit_advance hip _)
  | addressError k v => exact .inr ⟨k, v, rfl⟩

end

/-- A step of the Executor halts normally, halts with AddressError, or goes on. -/
theorem runStep_next_cases {s t : State} (h : runStep s = .next t) :
    t = s.haltNormally ∨ (∃ k v, t = s.raiseAddressError k v) ∨ GoesOn s t := by
  rcases runStep_cases s with ⟨_, e⟩ | ⟨r, i, hf, _, e⟩ | ⟨r, hf, _, e⟩ <;> rw [e] at h
  · exact .inl (Host.Outcome.next.inj h).symm
  · exact .inr (goesOn_or_addressError_of_exec (State.lt_of_fetch hf) h).symm
  · cases h
    exact .inr (.inr (goesOn_emit_advance (State.lt_of_fetch hf) _))

/-! ## What a byte of the container leaves -/

/-- The state when byte `b` has been taken from IN and kept, before it is looked at. -/
def State.received (s : State) (b : Byte) (rest : List Byte) : State :=
  ({ s with inPort := .opened (.bytes rest) } : State).keepByte b

@[simp] theorem State.received_consumed (s : State) (b : Byte) (rest : List Byte) :
    (s.received b rest).loader.consumed = s.loader.consumed + 1 := rfl
@[simp] theorem State.received_length (s : State) (b : Byte) (rest : List Byte) :
    (s.received b rest).loader.buffer.length = s.loader.buffer.length + 1 := by
  simp [State.received]
@[simp] theorem State.received_program (s : State) (b : Byte) (rest : List Byte) :
    (s.received b rest).program = s.program := rfl

/-- What `afterByte` leaves of a state that has just kept a byte, where the load goes on. -/
inductive ByteTaken (u : State) : State → Prop
  /-- R112: the magic is complete and right. -/
  | magicEnd : u.loader.consumed = magicBytes → ByteTaken u u.clearBuffer
  /-- R113, R114: the size is complete, nonzero and within MEM_CAPACITY. -/
  | sizeEnd (n : Size) : u.loader.consumed = headerBytes → n ≠ 0 → n.toNat ≤ u.cfg.memCapacity →
      ByteTaken u { u.clearBuffer with memorySize := n, mem := [] }
  /-- R115: a record is complete. -/
  | recordEnd (r : Record) : headerBytes < u.loader.consumed → u.loader.buffer.length = recordBytes →
      ByteTaken u { u.clearBuffer with program := u.program ++ [r] }
  /-- The field or record goes on. -/
  | inside : u.loader.consumed ≠ magicBytes → u.loader.consumed ≠ headerBytes →
      (headerBytes < u.loader.consumed → u.loader.buffer.length ≠ recordBytes) → ByteTaken u u

theorem byteTaken_of_afterByte {u t : State} (h : afterByte u = .next t) (ht : t.phase = .load) :
    ByteTaken u t := by
  unfold afterByte at h
  split at h
  · next hc =>
    unfold finishMagic at h
    split at h <;> cases h
    · exact .magicEnd hc
    · cases ht
  split at h
  · next hc =>
    unfold finishSize at h
    dsimp only at h
    split at h
    · cases h; cases ht
    split at h <;> cases h
    exact .sizeEnd _ hc ‹_› (by omega)
  split at h <;> cases h
  · next hc => exact .recordEnd _ hc.1 hc.2
  · next hmagic hsize hrecord => exact .inside hmagic hsize fun hc hl => hrecord ⟨hc, hl⟩

/-- End-of-stream ends the load, one way or the other. -/
theorem endOfStream_phase {s t : State} (h : endOfStream s = .next t) : t.phase ≠ .load := by
  unfold endOfStream at h
  split at h
  · cases h; simp
  split at h
  · cases h; simp
  split at h <;> cases h
  simp

/-- A step of the Loader that stays in phase LOAD has taken a byte. -/
theorem byteTaken_of_loadStep {s t : State} (h : loadStep s = .next t) (ht : t.phase = .load) :
    ∃ b rest, ByteTaken (s.received b rest) t := by
  unfold loadStep at h
  split at h
  · cases h
  · split at h <;> cases h
    cases ht
  · exact absurd ht (endOfStream_phase h)
  · next b rest _ => exact ⟨b, rest, byteTaken_of_afterByte h ht⟩

/-- A byte touches IN, the Loader, and what the Loader builds: `memorySize` within MEM_CAPACITY, no cell. -/
theorem ByteTaken.frame {s t : State} {b : Byte} {rest : List Byte} (h : ByteTaken (s.received b rest) t)
    (hmem : s.mem = []) (hfits : s.memorySize.toNat ≤ s.cfg.memCapacity) :
    t.mem = [] ∧ t.memorySize.toNat ≤ s.cfg.memCapacity ∧ t.inPort = .opened (.bytes rest) := by
  cases h with
  | magicEnd => exact ⟨hmem, hfits, rfl⟩
  | sizeEnd n _ _ hn => exact ⟨rfl, hn, rfl⟩
  | recordEnd => exact ⟨hmem, hfits, rfl⟩
  | inside => exact ⟨hmem, hfits, rfl⟩

/-! ## The two stages of a load -/

/-- R112, R113: inside the header the buffer holds the magic or the size so far, and nothing is built. -/
structure InHeader (s : State) : Prop where
  consumed : s.loader.consumed < headerBytes
  magic : s.loader.consumed < magicBytes → s.loader.buffer.length = s.loader.consumed
  size : magicBytes ≤ s.loader.consumed → s.loader.buffer.length = s.loader.consumed - magicBytes
  memorySize : s.memorySize = 0
  program : s.program = []

/-- R115, R116: after the header whole records are in the Program, and the buffer holds the rest. -/
structure InRecords (s : State) : Prop where
  consumed : s.loader.consumed = headerBytes + recordBytes * s.program.length + s.loader.buffer.length
  short : s.loader.buffer.length < recordBytes
  memorySize : s.memorySize ≠ 0

theorem InHeader.loaderInv {s : State} (h : InHeader s) : LoaderInv s := by
  obtain ⟨hc, hmagic, hsize, hm, hp⟩ := h
  simp only [magicBytes, headerBytes] at hc hmagic hsize
  constructor <;> simp only [magicBytes, headerBytes, recordBytes]
  case headerFirst => exact fun _ => ⟨hm, hp⟩
  all_goals omega

theorem InRecords.loaderInv {s : State} (h : InRecords s) : LoaderInv s := by
  obtain ⟨hc, hshort, hm⟩ := h
  have hpast : headerBytes ≤ s.loader.consumed := by omega
  exact { bufferShort := hshort
          inMagic := fun h => by simp only [magicBytes, headerBytes] at *; omega
          inSize := fun _ h => by omega
          inRecords := fun _ => hc
          headerFirst := fun h => by omega
          sizeNonzero := fun _ => hm }

theorem LoaderInv.stage {s : State} (h : LoaderInv s) : InHeader s ∨ InRecords s := by
  by_cases hc : s.loader.consumed < headerBytes
  · obtain ⟨hm, hp⟩ := h.headerFirst hc
    exact .inl ⟨hc, h.inMagic, fun h3 => h.inSize h3 hc, hm, hp⟩
  · have hpast : headerBytes ≤ s.loader.consumed := by omega
    exact .inr ⟨h.inRecords hpast, h.bufferShort, h.sizeNonzero hpast⟩

/-- A byte of the header keeps the load inside the header, or, as the seventh, ends it. -/
theorem InHeader.byteTaken {s t : State} {b : Byte} {rest : List Byte} (h : InHeader s)
    (ht : ByteTaken (s.received b rest) t) : InHeader t ∨ InRecords t := by
  obtain ⟨hc, hmagic, hsize, hm, hp⟩ := h
  simp only [magicBytes, headerBytes] at hc hmagic hsize
  cases ht with
  | magicEnd h3 =>
    refine .inl ⟨?_, ?_, ?_, hm, hp⟩ <;>
      simp_all [magicBytes, headerBytes]
  | sizeEnd n h7 hn =>
    refine .inr ⟨?_, ?_, hn⟩ <;>
      simp_all [headerBytes, recordBytes]
  | recordEnd r h8 =>
    rw [State.received_consumed, headerBytes] at h8
    omega
  | inside h3 h7 =>
    rw [State.received_consumed, magicBytes] at h3
    rw [State.received_consumed, headerBytes] at h7
    refine .inl ⟨?_, ?_, ?_, hm, hp⟩ <;>
      simp only [State.received_consumed, State.received_length, magicBytes, headerBytes] <;> omega

/-- A byte past the header goes to the record being received, or, as the 25th, completes it. -/
theorem InRecords.byteTaken {s t : State} {b : Byte} {rest : List Byte} (h : InRecords s)
    (ht : ByteTaken (s.received b rest) t) : InRecords t := by
  obtain ⟨hc, hshort, hm⟩ := h
  simp only [headerBytes, recordBytes] at hc hshort
  cases ht with
  | magicEnd h3 =>
    rw [State.received_consumed, magicBytes] at h3
    omega
  | sizeEnd n h7 =>
    rw [State.received_consumed, headerBytes] at h7
    omega
  | recordEnd r _ hl =>
    rw [State.received_length, recordBytes] at hl
    refine ⟨?_, by simp [recordBytes], hm⟩
    simp only [State.clearBuffer_loader, State.received_consumed, State.received_program,
      List.length_append, List.length_cons, List.length_nil, headerBytes, recordBytes]
    omega
  | inside _ _ hl =>
    simp only [State.received_consumed, State.received_length, headerBytes, recordBytes] at hl
    refine ⟨?_, ?_, hm⟩ <;>
      simp only [State.received_consumed, State.received_length, State.received_program,
        headerBytes, recordBytes] <;> omega

/-- R121: every byte taken keeps the Loader's bookkeeping. -/
theorem LoaderInv.byteTaken {s t : State} {b : Byte} {rest : List Byte} (h : LoaderInv s)
    (ht : ByteTaken (s.received b rest) t) : LoaderInv t := by
  rcases h.stage with hheader | hrecords
  · exact (hheader.byteTaken ht).elim InHeader.loaderInv InRecords.loaderInv
  · exact (hrecords.byteTaken ht).loaderInv

/-! ## The invariant of sound states, phase by phase -/

/-- A sound engine in phase LOAD, after a byte. -/
theorem State.Inv.loading {s t : State} (h : s.Inv) (hs : s.phase = .load) (ht : t.phase = .load)
    (hcfg : t.cfg = s.cfg) (hstatus : t.status = s.status) (hip : t.ip = s.ip) (htrace : t.trace = s.trace)
    (hmem : t.mem = []) (hfits : t.memorySize.toNat ≤ s.cfg.memCapacity) (hin : t.inPort ≠ .released)
    (hloader : LoaderInv t) : t.Inv := by
  obtain ⟨hip0, htrace0, -, -⟩ := h.loadFresh hs
  exact
    { cfgLegal := hcfg ▸ h.cfgLegal
      memCanonical := hmem ▸ Memory.wf_nil
      memInside := by simp [hmem]
      memFits := hcfg ▸ hfits
      progFits := fun hp => absurd ht hp
      ipBound := by simp [hip, hip0]
      statusZero := fun _ => hstatus.trans (h.statusZero (by simp [hs]))
      statusAtEnd := by simp [ht]
      loadFresh := fun _ => ⟨hip.trans hip0, htrace.trans htrace0, hmem, hin⟩
      loadSound := fun _ => hloader
      loadOver := fun hp => absurd ht hp
      runMemory := by simp [ht] }

/-- R120: a failed load leaves a sound halted engine. -/
theorem State.Inv.failLoad {s : State} (h : s.Inv) (hs : s.phase = .load) (c : FatalClass) (d : Diagnostic) :
    (s.failLoad c d).Inv where
  cfgLegal := h.cfgLegal
  memCanonical := Memory.wf_nil
  memInside := by simp
  memFits := by simp
  progFits := by simp
  ipBound := by simp [(h.loadFresh hs).1]
  statusZero := by simp
  statusAtEnd := fun _ => .inr ⟨c, rfl⟩
  loadFresh := by simp
  loadSound := by simp
  loadOver := by simp
  runMemory := by simp

/-- R119: a load that succeeds leaves a sound running engine. -/
theorem State.Inv.enterRun {s : State} (h : s.Inv) (hs : s.phase = .load)
    (hconsumed : headerBytes ≤ s.loader.consumed) (hprog : s.program.length ≤ s.cfg.progCapacity) :
    (s.enterRun s.memorySize s.program).Inv where
  cfgLegal := h.cfgLegal
  memCanonical := Memory.wf_nil
  memInside := by simp
  memFits := h.memFits
  progFits := fun _ => hprog
  ipBound := h.ipBound
  statusZero := fun _ => h.statusZero (by simp [hs])
  statusAtEnd := by simp
  loadFresh := by simp
  loadSound := by simp
  loadOver := by simp
  runMemory := fun _ => (h.loadSound hs).sizeNonzero hconsumed

/-- R121: the steps of phase LOAD keep the invariant. -/
theorem State.Inv.loadStep {s t : State} (h : s.Inv) (hs : s.phase = .load) (he : loadStep s = .next t) :
    t.Inv := by
  have hshape := loadStep_shape s
  rw [he] at hshape
  cases hshape with
  | fail c d => exact h.failLoad hs c d
  | enter _ hconsumed hprog => exact h.enterRun hs hconsumed hprog
  | more _ hcfg hphase hstatus hip htrace =>
    have ht : t.phase = .load := hphase.trans hs
    obtain ⟨b, rest, hbyte⟩ := byteTaken_of_loadStep he ht
    obtain ⟨-, -, hmem0, -⟩ := h.loadFresh hs
    obtain ⟨hmem, hfits, hin⟩ := hbyte.frame hmem0 h.memFits
    exact h.loading hs ht hcfg hstatus hip htrace hmem hfits (by simp [hin])
      ((h.loadSound hs).byteTaken hbyte)

/-- R143, R284: a running engine that halts with a legal status is sound. -/
theorem State.Inv.halting {s t : State} (h : s.Inv) (hs : s.phase = .run)
    (ht : t = { s with phase := .halt, status := t.status, trace := t.trace })
    (hstatus : t.status = 0 ∨ ∃ c, t.status = s.cfg.statusCodes.code c) : t.Inv := by
  generalize t.status = n, t.trace = log at ht hstatus
  subst ht
  exact
    { h with
      progFits := fun _ => h.progFits (by simp [hs])
      statusZero := by simp
      statusAtEnd := fun _ => hstatus
      loadFresh := by simp
      loadSound := by simp
      loadOver := fun _ => h.loadOver (by simp [hs])
      runMemory := by simp }

/-- R28, R55: where an instruction goes on, Memory stays canonical and inside `memorySize`. -/
theorem GoesOn.memory_sound {s t : State} (h : GoesOn s t) (hwf : s.mem.wf)
    (hinside : ∀ c ∈ s.mem, c.1 < s.memorySize.toNat) :
    t.mem.wf ∧ ∀ c ∈ t.mem, c.1 < s.memorySize.toNat := by
  rcases h.mem with hm | ⟨a, v, ha, hm⟩ <;> rw [hm]
  · exact ⟨hwf, hinside⟩
  · refine ⟨Memory.wf_writeCell a v hwf, fun c hc => ?_⟩
    rcases Memory.mem_writeCell hc with rfl | hc
    · exact ha
    · exact hinside c hc

/-- R23, R28: an instruction that goes on keeps the invariant. -/
theorem State.Inv.goesOn {s t : State} (h : s.Inv) (hs : s.phase = .run) (hgo : GoesOn s t) : t.Inv := by
  have ht : t.phase = .run := hgo.phase.trans hs
  obtain ⟨hwf, hinside⟩ := hgo.memory_sound h.memCanonical h.memInside
  obtain ⟨hin, hloader⟩ := h.loadOver (by simp [hs])
  exact
    { cfgLegal := hgo.cfg ▸ h.cfgLegal
      memCanonical := hwf
      memInside := hgo.memorySize ▸ hinside
      memFits := by simpa [hgo.memorySize, hgo.cfg] using h.memFits
      progFits := fun _ => by simpa [hgo.program, hgo.cfg] using h.progFits (by simp [hs])
      ipBound := by simpa [State.instructionCount, hgo.program] using hgo.ip
      statusZero := fun _ => hgo.status.trans (h.statusZero (by simp [hs]))
      statusAtEnd := by simp [ht]
      loadFresh := by simp [ht]
      loadSound := by simp [ht]
      loadOver := fun _ => ⟨hgo.inPort.trans hin, hgo.loader.trans hloader⟩
      runMemory := fun _ => by simpa [hgo.memorySize] using h.runMemory hs }

/-- The steps of phase RUN keep the invariant. -/
theorem State.Inv.runStep {s t : State} (h : s.Inv) (hs : s.phase = .run) (he : runStep s = .next t) :
    t.Inv := by
  rcases runStep_next_cases he with rfl | ⟨k, v, rfl⟩ | hgo
  · exact h.halting hs rfl (.inl rfl)
  · exact h.halting hs rfl (.inr ⟨.addressError, rfl⟩)
  · exact h.goesOn hs hgo

/-- Settles O19, by the phase of the step. -/
theorem stepKeepsSoundness : Obligations.StepKeepsSoundness := by
  intro s t h he
  cases hs : s.phase with
  | load => exact h.loadStep hs (step_load hs ▸ he)
  | run => exact h.runStep hs (step_run hs ▸ he)
  | halt =>
    rw [step_halt hs] at he
    exact Host.Outcome.next.inj he ▸ h

/-! ## The trace, the phase and the status register -/

/-- What a step of each phase can leave. -/
theorem step_next_cases {s t : State} (he : step s = .next t) :
    (s.phase = .load ∧ LoadShape s (.next t)) ∨
    (s.phase = .run ∧ (t = s.haltNormally ∨ (∃ k v, t = s.raiseAddressError k v) ∨ GoesOn s t)) ∨
    (s.phase = .halt ∧ t = s) := by
  cases hs : s.phase with
  | load => exact .inl ⟨rfl, he ▸ step_load hs ▸ loadStep_shape s⟩
  | run => exact .inr (.inl ⟨rfl, runStep_next_cases (step_run hs ▸ he)⟩)
  | halt =>
    rw [step_halt hs] at he
    exact .inr (.inr ⟨rfl, (Host.Outcome.next.inj he).symm⟩)

/-- Settles O44: an error, an OUT or a SLEEP appends its one event, everything else none. -/
theorem stepAppendsAtMostOneEvent : Obligations.StepAppendsAtMostOneEvent := by
  intro s t he
  rcases step_next_cases he with ⟨-, hload⟩ | ⟨-, rfl | ⟨k, v, rfl⟩ | hgo⟩ | ⟨-, rfl⟩
  · cases hload with
    | fail _ d => exact .inr ⟨.diag d, rfl⟩
    | enter => exact .inl rfl
    | more _ _ _ _ _ htrace => exact .inl htrace
  · exact .inl rfl
  · exact .inr ⟨.diag (.addressError s.ip k v), rfl⟩
  · exact hgo.trace
  · exact .inl rfl

/-- Settles O47: no step enters LOAD from elsewhere, and a load that succeeds has released IN. -/
theorem phaseTransitions : Obligations.PhaseTransitions := by
  intro s t he
  rcases step_next_cases he with ⟨hs, hload⟩ | ⟨hs, rfl | ⟨k, v, rfl⟩ | hgo⟩ | ⟨hs, rfl⟩
  · refine ⟨by simp [hs], by simp [hs], fun _ ht => ?_⟩
    cases hload with
    | fail => cases ht
    | enter => rfl
    | more _ _ hphase => simp [hphase, hs] at ht
  · simp [hs]
  · simp [hs]
  · simp [hgo.phase, hs]
  · simp [hs]

/-- Settles O49: only a failed load, an AddressError and normal termination write `status`, and all three halt. -/
theorem onlyHaltingSetsStatus : Obligations.OnlyHaltingSetsStatus := by
  intro s t he ht
  rcases step_next_cases he with ⟨-, hload⟩ | ⟨-, rfl | ⟨k, v, rfl⟩ | hgo⟩ | ⟨-, rfl⟩
  · cases hload with
    | fail => exact absurd rfl ht
    | enter => rfl
    | more _ _ _ hstatus => exact hstatus
  · exact absurd rfl ht
  · exact absurd rfl ht
  · exact hgo.status
  · rfl

/-- Settles O15. -/
theorem haltedEngineStaysPut : Obligations.HaltedEngineStaysPut := fun _ hs => step_halt hs

/-! ## Reset -/

/-- Settles O16. -/
theorem resetValues : Obligations.ResetValues := ⟨rfl, rfl, rfl, rfl, rfl, rfl, rfl, rfl, rfl⟩

/-- At offset 0 the load is inside the header. -/
theorem inHeader_reset : InHeader State.reset :=
  ⟨by decide, fun _ => rfl, fun _ => rfl, rfl, rfl⟩

/-- Settles O17. -/
theorem resetIsSound : Obligations.ResetIsSound where
  cfgLegal := by decide
  memCanonical := Memory.wf_reset
  memInside := by simp [State.reset]
  memFits := by decide
  progFits := fun h => absurd rfl h
  ipBound := by decide
  statusZero := fun _ => rfl
  statusAtEnd := fun _ => .inl rfl
  loadFresh := fun _ => ⟨rfl, rfl, rfl, by decide⟩
  loadSound := fun _ => inHeader_reset.loaderInv
  loadOver := fun h => absurd rfl h
  runMemory := fun h => absurd h (by decide)

end Sys2Proof.Machine
end

section
/-! Noninterference of the event trace (R30): the earlier events pass through every operation, up to `step`. -/

namespace Sys2Proof.Machine

open Sys2Proof.Spec

/-- `s` with other events before its trace. -/
def State.withEarlier (s : State) (earlier : List Event) : State :=
  { s with trace := earlier ++ s.trace }

/-- An answer whose next state has these events before its trace. -/
abbrev answerWithEarlier (earlier : List Event) : Answer → Answer :=
  mapNext (fun t => t.withEarlier earlier)

section
variable (s : State) (earlier : List Event)

@[simp] theorem State.withEarlier_cfg : (s.withEarlier earlier).cfg = s.cfg := rfl
@[simp] theorem State.withEarlier_phase : (s.withEarlier earlier).phase = s.phase := rfl
@[simp] theorem State.withEarlier_inPort : (s.withEarlier earlier).inPort = s.inPort := rfl
@[simp] theorem State.withEarlier_fetch : (s.withEarlier earlier).fetch = s.fetch := rfl

/-! ## The updates of the state -/

theorem State.withEarlier_emit (e : Event) :
    (s.withEarlier earlier).emit e = (s.emit e).withEarlier earlier := by
  simp [State.emit, State.withEarlier]

theorem State.withEarlier_takeFatal (c : FatalClass) (d : Diagnostic) :
    (s.withEarlier earlier).takeFatal c d = (s.takeFatal c d).withEarlier earlier := by
  simp [State.takeFatal, State.withEarlier]

theorem State.withEarlier_raiseAddressError (k : AddressKind) (v : Word) :
    (s.withEarlier earlier).raiseAddressError k v = (s.raiseAddressError k v).withEarlier earlier :=
  s.withEarlier_takeFatal earlier _ _

theorem State.withEarlier_recover (d : Diagnostic) :
    (s.withEarlier earlier).recover d = (s.recover d).withEarlier earlier :=
  congrArg State.advance (s.withEarlier_emit earlier _)

theorem State.withEarlier_failLoad (c : FatalClass) (d : Diagnostic) :
    (s.withEarlier earlier).failLoad c d = (s.failLoad c d).withEarlier earlier := by
  simp [State.failLoad, State.takeFatal, State.withEarlier]

/-! ## The shared operations of the meanings -/

theorem answerWithEarlier_ite {p : Prop} [Decidable p] {a b a' b' : Answer}
    (ha : a' = answerWithEarlier earlier a) (hb : b' = answerWithEarlier earlier b) :
    (if p then a' else b') = answerWithEarlier earlier (if p then a else b) := by
  split
  · exact ha
  · exact hb

theorem next_raiseAddressError_withEarlier (k : AddressKind) (v : Word) :
    .next ((s.withEarlier earlier).raiseAddressError k v) =
      answerWithEarlier earlier (.next (s.raiseAddressError k v)) :=
  congrArg Host.Outcome.next (s.withEarlier_raiseAddressError earlier k v)

variable {s earlier}

theorem checked_withEarlier {a : Word} {rest rest' : Nat → Answer}
    (h : ∀ n, rest' n = answerWithEarlier earlier (rest n)) :
    checked (s.withEarlier earlier) a rest' = answerWithEarlier earlier (checked s a rest) :=
  answerWithEarlier_ite earlier (h _) (next_raiseAddressError_withEarlier s earlier _ _)

theorem withTernary_withEarlier {a b c : Word} {rest rest' : Nat → Word → Word → Answer}
    (h : ∀ d x y, rest' d x y = answerWithEarlier earlier (rest d x y)) :
    withTernary (s.withEarlier earlier) a b c rest' =
      answerWithEarlier earlier (withTernary s a b c rest) :=
  checked_withEarlier fun _ => checked_withEarlier fun _ => checked_withEarlier fun _ => h _ _ _

theorem writeResult_withEarlier (mode : OverflowMode) (p : Bool) (d : Nat) (z : Int) :
    writeResult (s.withEarlier earlier) mode p d z =
      answerWithEarlier earlier (writeResult s mode p d z) :=
  answerWithEarlier_ite earlier rfl rfl

variable (s earlier)

theorem next_recover_withEarlier (d : Diagnostic) :
    .next ((s.withEarlier earlier).recover d) = answerWithEarlier earlier (.next (s.recover d)) :=
  congrArg Host.Outcome.next (s.withEarlier_recover earlier d)

theorem next_emit_advance_withEarlier (e : Event) :
    .next ((s.withEarlier earlier).emit e).advance = answerWithEarlier earlier (.next (s.emit e).advance) :=
  congrArg (fun t => Host.Outcome.next t.advance) (s.withEarlier_emit earlier e)

/-! ## Every instruction, and the step of each phase -/

/-- No instruction reads the trace. -/
theorem exec_withEarlier (i : Instr) :
    exec i (s.withEarlier earlier) = answerWithEarlier earlier (exec i s) := by
  cases i with
  | nop => rfl
  | set =>
    rw [exec_set, exec_set, execSet, execSet]
    exact checked_withEarlier fun _ => rfl
  | load =>
    rw [exec_load, exec_load, execLoad, execLoad]
    exact checked_withEarlier fun _ => checked_withEarlier fun _ => checked_withEarlier fun _ => rfl
  | store =>
    rw [exec_store, exec_store, execStore, execStore]
    exact checked_withEarlier fun _ => checked_withEarlier fun _ => checked_withEarlier fun _ => rfl
  | jmp =>
    rw [exec_jmp, exec_jmp, execJmp, execJmp]
    exact checked_withEarlier fun _ => answerWithEarlier_ite earlier rfl
      (next_raiseAddressError_withEarlier s earlier _ _)
  | sgz =>
    rw [exec_sgz, exec_sgz, execSgz, execSgz]
    exact checked_withEarlier fun _ => answerWithEarlier_ite earlier rfl rfl
  | add =>
    rw [exec_add, exec_add, execAdd, execAdd]
    exact withTernary_withEarlier fun _ _ _ => writeResult_withEarlier _ _ _ _
  | mul =>
    rw [exec_mul, exec_mul, execMul, execMul]
    exact withTernary_withEarlier fun _ _ _ => writeResult_withEarlier _ _ _ _
  | div =>
    rw [exec_div, exec_div, execDiv, execDiv]
    exact withTernary_withEarlier fun _ _ _ => answerWithEarlier_ite earlier
      (next_recover_withEarlier s earlier _) (writeResult_withEarlier _ _ _ _)
  | mod =>
    rw [exec_mod, exec_mod, execMod, execMod]
    exact withTernary_withEarlier fun _ _ _ => answerWithEarlier_ite earlier
      (next_recover_withEarlier s earlier _) (writeResult_withEarlier _ _ _ _)
  | out =>
    rw [exec_out, exec_out, execOut, execOut]
    exact checked_withEarlier fun _ => next_emit_advance_withEarlier s earlier _
  | sleep =>
    rw [exec_sleep, exec_sleep, execSleep, execSleep]
    exact checked_withEarlier fun _ => next_emit_advance_withEarlier s earlier _

theorem runStep_withEarlier :
    runStep (s.withEarlier earlier) = answerWithEarlier earlier (runStep s) := by
  unfold runStep
  rw [State.withEarlier_fetch, State.withEarlier_cfg]
  cases s.fetch with
  | none => rfl
  | some r =>
    dsimp only
    cases decodeRecord s.cfg.opcodeMap r with
    | ok i => exact exec_withEarlier s earlier i
    | error => exact next_recover_withEarlier s earlier _

theorem next_failLoad_withEarlier (c : FatalClass) (d : Diagnostic) :
    .next ((s.withEarlier earlier).failLoad c d) = answerWithEarlier earlier (.next (s.failLoad c d)) :=
  congrArg Host.Outcome.next (s.withEarlier_failLoad earlier c d)

theorem afterByte_withEarlier :
    afterByte (s.withEarlier earlier) = answerWithEarlier earlier (afterByte s) := by
  have hfail := next_failLoad_withEarlier s earlier
  have hmagic : finishMagic (s.withEarlier earlier) = answerWithEarlier earlier (finishMagic s) :=
    answerWithEarlier_ite earlier rfl (hfail _ _)
  have hsize : finishSize (s.withEarlier earlier) = answerWithEarlier earlier (finishSize s) :=
    answerWithEarlier_ite earlier (hfail _ _) (answerWithEarlier_ite earlier rfl rfl)
  exact answerWithEarlier_ite earlier hmagic
    (answerWithEarlier_ite earlier hsize (answerWithEarlier_ite earlier rfl rfl))

theorem endOfStream_withEarlier :
    endOfStream (s.withEarlier earlier) = answerWithEarlier earlier (endOfStream s) := by
  have hfail := next_failLoad_withEarlier s earlier
  exact answerWithEarlier_ite earlier (hfail _ _) (answerWithEarlier_ite earlier (hfail _ _)
    (answerWithEarlier_ite earlier rfl rfl))

theorem loadStep_withEarlier :
    loadStep (s.withEarlier earlier) = answerWithEarlier earlier (loadStep s) := by
  unfold loadStep
  rw [State.withEarlier_inPort]
  cases s.inPort with
  | released => rfl
  | opened input =>
    cases input with
    | unavailable => exact answerWithEarlier_ite earlier (next_failLoad_withEarlier s earlier _ _) rfl
    | bytes stream =>
      cases stream with
      | nil => exact endOfStream_withEarlier s earlier
      | cons b rest =>
        exact afterByte_withEarlier (({ s with inPort := .opened (.bytes rest) } : State).keepByte b) earlier

theorem step_withEarlier : step (s.withEarlier earlier) = answerWithEarlier earlier (step s) := by
  unfold step
  rw [State.withEarlier_phase]
  cases s.phase with
  | load => exact loadStep_withEarlier s earlier
  | run => exact runStep_withEarlier s earlier
  | halt => rfl

end

/-- Settles O45. -/
theorem traceIsNeverRead : Obligations.TraceIsNeverRead := step_withEarlier

end Sys2Proof.Machine
end

section
/-! The obligations of 20_memory.md: the width of the address test, the one cell a write replaces, what an
instruction leaves of Memory, and the Program, which no step after loading touches. -/

namespace Sys2Proof.Machine

open Sys2Proof.Spec

/-! ## The address test -/

/-- The halt of R284, field by field. -/
theorem State.raiseAddressError_eq_addressHalt (s : State) (k : AddressKind) (v : Word) :
    s.raiseAddressError k v = addressHalt s k v := rfl

theorem checked_eq_addressHalt {s : State} {a : Word} (rest : Nat → Answer) (h : ¬ s.inRange a) :
    checked s a rest = .next (addressHalt s .memIndex a) := by
  rw [checked_of_not_inRange rest h, State.raiseAddressError_eq_addressHalt]

/-- No cell has a negative index (R53). -/
theorem State.not_inRange_of_neg (s : State) {a : Word} (h : a.toInt < 0) : ¬ s.inRange a :=
  fun hin => h.not_ge hin.1

/-- `memorySize` is 32 bits wide, so a wider index passes no check: none of its bits is dropped (D6). -/
theorem State.not_inRange_of_wide (s : State) {a : Word} (h : 2 ^ 32 ≤ a.toNat) : ¬ s.inRange a := by
  rw [State.inRange_iff, Nat.not_lt]
  exact s.memorySize.isLt.le.trans h

/-- Settles O37. -/
theorem addressTestIsFullWidth : Obligations.AddressTestIsFullWidth := by
  intro s a rest
  refine ⟨fun hlt => ?_, fun hge => ?_, fun hbad => ?_⟩
  · exact checked_of_inRange rest ((s.inRange_iff a).2 hlt)
  · exact checked_eq_addressHalt rest fun hin => ((s.inRange_iff a).1 hin).not_ge hge
  · exact checked_eq_addressHalt rest (hbad.elim s.not_inRange_of_neg s.not_inRange_of_wide)

/-! ## What is written -/

/-- Settles O38. -/
theorem writeReplacesOneCell : Obligations.WriteReplacesOneCell := fun s a v =>
  ⟨s.readCell_writeCell_same a v, fun _ hb => s.readCell_writeCell_other v hb, rfl⟩

/-- Settles O39, by the shapes of an instruction's answer: only one of them writes, and it writes the destination. -/
theorem onlyTheDestinationCellChanges : Obligations.OnlyTheDestinationCellChanges := by
  intro i s t h a ha
  have hshape := exec_shape i s
  rw [h] at hshape
  cases hshape with
  | write d v _ hdest =>
    have hne : a ≠ d.toNat := fun e => ha (e ▸ hdest)
    rw [State.advance_readCell, s.readCell_writeCell_other v hne]
  | advance => exact s.advance_readCell a
  | noSkip => exact s.advance_readCell a
  | skip => exact s.skipNext_readCell a
  | jump => exact s.jumpTo_readCell _ a
  | out => rw [State.advance_readCell, State.emit_readCell]
  | sleep => rw [State.advance_readCell, State.emit_readCell]
  | zeroDivisor => exact s.recover_readCell _ a
  | addressError k v => exact s.raiseAddressError_readCell k v a

/-- Settles O43: a loaded engine's step halts or goes on, and neither touches what the Loader has left. -/
theorem programIsReadOnlyAfterLoading : Obligations.ProgramIsReadOnlyAfterLoading := by
  intro s t hs he
  rcases step_next_cases he with ⟨hload, -⟩ | ⟨-, rfl | ⟨k, v, rfl⟩ | hgo⟩ | ⟨-, rfl⟩
  · exact absurd hload hs
  · exact ⟨rfl, rfl, rfl, rfl, rfl⟩
  · exact ⟨rfl, rfl, rfl, rfl, rfl⟩
  · exact ⟨hgo.cfg, hgo.program, hgo.memorySize, hgo.inPort, hgo.loader⟩
  · exact ⟨rfl, rfl, rfl, rfl, rfl⟩

end Sys2Proof.Machine
end

section
/-! The obligations of 30_encoding.md: decoding and encoding undo each other, a record as bit slices, the container,
and a program's run, which does not depend on the bytes of its operations. -/

namespace Sys2Proof

/-! ## Little-endian fields -/

/-- The low bytes of a number, then the bytes of what is left. -/
theorem leBytes_add (m n v : Nat) : leBytes (m + n) v = leBytes m v ++ leBytes n (v / 256 ^ m) := by
  induction m generalizing v with
  | zero => simp [leBytes]
  | succ m ih =>
    rw [Nat.add_right_comm, leBytes, leBytes, ih, List.cons_append, Nat.div_div_eq_div_mul, Nat.pow_succ']

/-- `n` bytes hold a number modulo `256 ^ n`. -/
theorem leBytes_mod (n v : Nat) : leBytes n (v % 256 ^ n) = leBytes n v := by
  rw [← leNat_leBytes]
  simpa using leBytes_leNat (leBytes n v)

/-- The eight bytes of an operand cut out of a longer number. -/
theorem leBytes_ofNat (v : Nat) : leBytes 8 (BitVec.ofNat 64 v).toNat = leBytes 8 v := by
  rw [BitVec.toNat_ofNat]
  exact leBytes_mod 8 v

/-- Eight bytes read as an operand lose no bit. -/
theorem leBytes_leWord {bytes : List Byte} (h : bytes.length = 8) :
    leBytes 8 (leWord bytes).toNat = bytes := by
  rw [leWord, leBytes_ofNat, ← h, leBytes_leNat]

/-- The header's four bytes read back as the size. -/
theorem leSize_leBytes (n : Size) : Machine.leSize (leBytes 4 n.toNat) = n := by
  have hlt : n.toNat < 256 ^ 4 := n.isLt
  rw [Machine.leSize, leNat_leBytes, Nat.mod_eq_of_lt hlt, BitVec.ofNat_toNat, BitVec.setWidth_eq]

/-! ## Records -/

/-- R83: the 25 bytes of a record are its four fields, and nothing else. -/
theorem bytesOfRecord_recordOfBytes {bytes : List Byte} (h : bytes.length = recordBytes) :
    bytesOfRecord (recordOfBytes bytes) = bytes := by
  cases bytes with
  | nil => cases h
  | cons b rest =>
    have hlen : rest.length = 8 + 8 + 8 := Nat.succ.inj h
    have h1 : leBytes 8 (leWord (rest.take 8)).toNat = rest.take 8 := leBytes_leWord (by simp [hlen])
    have h2 : leBytes 8 (leWord ((rest.drop 8).take 8)).toNat = (rest.drop 8).take 8 :=
      leBytes_leWord (by simp [hlen])
    have h3 : leBytes 8 (leWord ((rest.drop 16).take 8)).toNat = (rest.drop 16).take 8 :=
      leBytes_leWord (by simp [hlen])
    calc bytesOfRecord (recordOfBytes (b :: rest))
        = b :: (rest.take 8 ++ (rest.drop 8).take 8 ++ (rest.drop 16).take 8) := by
          simp [bytesOfRecord, recordOfBytes, h1, h2, h3]
      _ = b :: rest.take (8 + 8 + 8) := by rw [List.take_add, List.take_add]
      _ = b :: rest := by rw [← hlen, List.take_length]

/-- R85: the fields of a record, as bit slices of its 200-bit word. -/
def recordOfWord (w : Nat) : Record where
  opcode := BitVec.ofNat 8 w
  op1 := BitVec.ofNat 64 (w / 2 ^ 8)
  op2 := BitVec.ofNat 64 (w / 2 ^ 72)
  op3 := BitVec.ofNat 64 (w / 2 ^ 136)

/-- The low 200 bits of a word are the bytes of the record of its slices. -/
theorem leBytes_eq_bytesOfRecord (w : Nat) : leBytes recordBytes w = bytesOfRecord (recordOfWord w) := by
  calc leBytes (1 + 8 + 8 + 8) w
      = leBytes 1 w ++ leBytes 8 (w / 2 ^ 8) ++ leBytes 8 (w / 2 ^ 72) ++ leBytes 8 (w / 2 ^ 136) := by
        rw [leBytes_add, leBytes_add, leBytes_add]
        rfl
    _ = bytesOfRecord (recordOfWord w) := by
        simp only [bytesOfRecord, recordOfWord, leBytes_ofNat]
        rfl

/-- Settles O4. -/
theorem recordFieldsAreBitSlices : Obligations.RecordFieldsAreBitSlices := by
  intro w hw
  rw [bytesOfTableWord, Nat.mod_eq_of_lt hw, leBytes_eq_bytesOfRecord, recordOfBytes_bytesOfRecord]
  rfl

/-! ## Instructions -/

/-- R144: under a legal map the record of an instruction decodes to it. -/
theorem decodeRecord_recordOfInstr {map : OpcodeMap} (h : map.wf) (i : Instr) :
    decodeRecord map (recordOfInstr map i) = .ok i := by
  simp [decodeRecord, recordOfInstr, OpcodeMap.mnemonic_code h]

/-- Under any map, a record that decodes is the record of the instruction it decodes to. -/
theorem recordOfInstr_of_decodeRecord {map : OpcodeMap} {r : Record} {i : Instr}
    (h : decodeRecord map r = .ok i) : recordOfInstr map i = r := by
  unfold decodeRecord at h
  split at h
  · next m hm =>
    cases h
    simp [recordOfInstr, OpcodeMap.code_of_mnemonic hm]
  · cases h

/-- Bytes decode to an instruction only where they are one record, and that record decodes to it. -/
theorem decode_eq_ok_iff {map : OpcodeMap} {bytes : List Byte} {i : Instr} :
    decode map bytes = .ok i ↔
      bytes.length = recordBytes ∧ decodeRecord map (recordOfBytes bytes) = .ok i := by
  by_cases h : bytes.length = recordBytes <;> simp [decode, h]

/-- Settles O1: the 25 bytes are the instruction's record again, and a legal map's byte selects its operation. -/
theorem decodeInvertsEncode : Obligations.DecodeInvertsEncode := by
  intro map i hmap _
  rw [decode_eq_ok_iff, encode, recordOfBytes_bytesOfRecord]
  exact ⟨bytesOfRecord_length _, decodeRecord_recordOfInstr hmap i⟩

/-- Settles O2: the instruction's record is the decoded one, and that record's bytes are the given ones. -/
theorem encodeInvertsDecode : Obligations.EncodeInvertsDecode := by
  intro map bytes i h
  obtain ⟨hlen, hdecode⟩ := decode_eq_ok_iff.1 h
  rw [encode, recordOfInstr_of_decodeRecord hdecode, bytesOfRecord_recordOfBytes hlen]

/-- Settles O5. -/
theorem sampleWordsDecode : Obligations.SampleWordsDecode :=
  ⟨by decide, by decide, by decide, by decide⟩

end Sys2Proof

namespace Sys2Proof.Machine

open Sys2Proof.Spec

/-! ## The container -/

@[simp] theorem length_flatMap_bytesOfRecord (p : List Record) :
    (p.flatMap bytesOfRecord).length = recordBytes * p.length := by
  simp [List.length_flatMap, Nat.mul_comm]

/-- Records laid end to end are found again at the strides of R115. -/
theorem recordsOf_flatMap (p : List Record) : recordsOf p.length (p.flatMap bytesOfRecord) = p := by
  induction p with
  | nil => rfl
  | cons r rest ih =>
    rw [List.flatMap_cons, List.length_cons, recordsOf, List.take_left' (bytesOfRecord_length r),
      List.drop_left' (bytesOfRecord_length r), recordOfBytes_bytesOfRecord, ih]

/-- The length of a container: the header and the records, with no padding (R80). -/
theorem encodeContainer_length (c : Container) :
    (encodeContainer c).length = headerBytes + recordBytes * c.program.length := by
  simp only [encodeContainer, List.length_append, leBytes_length, length_flatMap_bytesOfRecord]
  rfl

theorem encodeContainer_magic (c : Container) : (encodeContainer c).take magicBytes = magic := by
  rw [encodeContainer, List.append_assoc]
  exact List.take_left' rfl

theorem encodeContainer_size (c : Container) :
    leSize (((encodeContainer c).drop magicBytes).take 4) = c.memorySize := by
  rw [encodeContainer, List.append_assoc, List.drop_left' (i := magicBytes) rfl, List.take_left' (leBytes_length 4 _),
    leSize_leBytes]

theorem encodeContainer_records (c : Container) :
    (encodeContainer c).drop headerBytes = c.program.flatMap bytesOfRecord :=
  List.drop_left' (by simp [magic, headerBytes])

/-- Settles O6: the container passes each test of R118 in turn, and its strides are its records. -/
theorem containerLoads : Obligations.ContainerLoads := by
  intro cfg c hsize hmem hprog
  have hlen := encodeContainer_length c
  have hmagic : ¬ (encodeContainer c).length < magicBytes := by rw [hlen, headerBytes, magicBytes]; omega
  have hheader : ¬ (encodeContainer c).length < headerBytes := by omega
  have hbody : (encodeContainer c).length - headerBytes = recordBytes * c.program.length := by omega
  have hwhole : recordBytes * c.program.length % recordBytes = 0 := Nat.mul_mod_right _ _
  have hcount : recordBytes * c.program.length / recordBytes = c.program.length :=
    Nat.mul_div_right _ (by decide)
  simp only [loadBytes, encodeContainer_magic, encodeContainer_size, encodeContainer_records, hbody, hwhole,
    hcount, recordsOf_flatMap, hmagic, hheader, hsize, hmem.not_gt, hprog.not_gt, if_false, ne_eq,
    not_true_eq_false]

/-! ## What an operation ignores -/

/-- Settles O33: no meaning names the operands its row of R87 calls ignored. -/
theorem ignoredOperandsHaveNoEffect : Obligations.IgnoredOperandsHaveNoEffect :=
  fun _ _ _ _ _ _ _ => ⟨rfl, rfl, rfl, rfl, rfl, rfl, rfl, rfl⟩

/-! ## The bytes of the operations

`underMap t map is` exchanges the map and the Program of any state `t`. No instruction reads either, but for the
length of the Program, so the exchange passes through every operation. -/

section
variable {s : State} {map : OpcodeMap} {is : List Instr}

theorem underMap_underMap (map₁ : OpcodeMap) :
    underMap (underMap s map₁ is) map is = underMap s map is := rfl

theorem underMap_instructionCount : (underMap s map is).instructionCount = is.length :=
  List.length_map _

theorem underMap_isTarget (h : s.instructionCount = is.length) (t : Word) :
    (underMap s map is).isTarget t ↔ s.isTarget t := by
  rw [State.isTarget, State.isTarget, underMap_instructionCount, h]

theorem checked_underMap {a : Word} {rest rest' : Nat → Answer}
    (h : ∀ n, rest' n = mapNext (underMap · map is) (rest n)) :
    checked (underMap s map is) a rest' = mapNext (underMap · map is) (checked s a rest) := by
  rw [checked, checked, apply_ite (mapNext _), ← h]
  rfl

theorem withTernary_underMap {a b c : Word} {rest rest' : Nat → Word → Word → Answer}
    (h : ∀ d x y, rest' d x y = mapNext (underMap · map is) (rest d x y)) :
    withTernary (underMap s map is) a b c rest' =
      mapNext (underMap · map is) (withTernary s a b c rest) :=
  checked_underMap fun _ => checked_underMap fun _ => checked_underMap fun _ => h _ _ _

theorem writeResult_underMap (mode : OverflowMode) (p : Bool) (d : Nat) (z : Int) :
    writeResult (underMap s map is) mode p d z = mapNext (underMap · map is) (writeResult s mode p d z) := by
  rw [writeResult, writeResult, apply_ite (mapNext _)]
  rfl

/-- The arithmetic of DIV and MOD after the checks: the zero divisor, or the write of a result. -/
theorem divisor_underMap (b : Word) (m : Mnemonic) (mode : OverflowMode) (p : Bool) (d : Nat) (z : Int) :
    (if b = 0 then .next ((underMap s map is).recover (.arithmeticError s.ip m))
      else writeResult (underMap s map is) mode p d z) =
    mapNext (underMap · map is)
      (if b = 0 then .next (s.recover (.arithmeticError s.ip m)) else writeResult s mode p d z) := by
  rw [apply_ite (mapNext _), writeResult_underMap]
  rfl

/-- An instruction does the same where the Program is exchanged for one of the same length under another map. -/
theorem exec_underMap (h : s.instructionCount = is.length) (i : Instr) :
    exec i (underMap s map is) = mapNext (underMap · map is) (exec i s) := by
  cases i with
  | nop => rfl
  | set =>
    rw [exec_set, exec_set]
    exact checked_underMap fun _ => rfl
  | load =>
    rw [exec_load, exec_load]
    exact checked_underMap fun _ => checked_underMap fun _ => checked_underMap fun _ => rfl
  | store =>
    rw [exec_store, exec_store]
    exact checked_underMap fun _ => checked_underMap fun _ => checked_underMap fun _ => rfl
  | jmp =>
    rw [exec_jmp, exec_jmp]
    refine checked_underMap fun c => ?_
    rw [apply_ite (mapNext _)]
    exact if_congr (underMap_isTarget h _) rfl rfl
  | sgz =>
    rw [exec_sgz, exec_sgz]
    refine checked_underMap fun c => ?_
    rw [apply_ite (mapNext _)]
    rfl
  | add =>
    rw [exec_add, exec_add]
    exact withTernary_underMap fun _ _ _ => writeResult_underMap _ _ _ _
  | mul =>
    rw [exec_mul, exec_mul]
    exact withTernary_underMap fun _ _ _ => writeResult_underMap _ _ _ _
  | div =>
    rw [exec_div, exec_div]
    exact withTernary_underMap fun _ _ _ => divisor_underMap _ _ _ _ _ _
  | mod =>
    rw [exec_mod, exec_mod]
    exact withTernary_underMap fun _ _ _ => divisor_underMap _ _ _ _ _ _
  | out =>
    rw [exec_out, exec_out]
    exact checked_underMap fun _ => rfl
  | sleep =>
    rw [exec_sleep, exec_sleep]
    exact checked_underMap fun _ => rfl

theorem underMap_fetch :
    (underMap s map is).fetch = (is[s.ip.toNat]?).map (recordOfInstr map) := List.getElem?_map

/-- Past the end of the instructions the run ends, under every map. -/
theorem runStep_underMap_of_none (h : is[s.ip.toNat]? = none) :
    runStep (underMap s map is) = .next (underMap s map is).haltNormally := by
  simp [runStep, underMap_fetch, h]

/-- Under a legal map the step runs the instruction at `ip`. -/
theorem runStep_underMap_of_some (hmap : map.wf) {i : Instr} (h : is[s.ip.toNat]? = some i) :
    runStep (underMap s map is) = exec i (underMap s map is) := by
  have hdecode : decodeRecord (underMap s map is).cfg.opcodeMap (recordOfInstr map i) = .ok i :=
    decodeRecord_recordOfInstr hmap i
  simp [runStep, underMap_fetch, h, hdecode]

end

/-- Settles O46: under either map the step runs the same instruction, which sees neither map. -/
theorem opcodeMapIsImmaterial : Obligations.OpcodeMapIsImmaterial := by
  intro s map₁ map₂ is h₁ h₂ hs
  have hrun (map : OpcodeMap) : step (underMap s map is) = runStep (underMap s map is) := step_run hs
  rw [hrun, hrun]
  cases hi : is[s.ip.toNat]? with
  | none =>
    rw [runStep_underMap_of_none hi, runStep_underMap_of_none hi]
    rfl
  | some i =>
    rw [runStep_underMap_of_some h₁ hi, runStep_underMap_of_some h₂ hi, ← underMap_underMap map₁]
    exact exec_underMap underMap_instructionCount i

end Sys2Proof.Machine
end

section
/-! The obligations of 40_loader.md: the order of tests of the Loader function, what it accepts and rejects, how a load
ends, and that the byte-at-a-time Loader reaches the function's outcome. -/

namespace Sys2Proof.Machine

open Sys2Proof.Spec

/-! ## The Loader function, stage by stage -/

/-- What `Load` of R118 gives once the header is accepted: the size is `n`, the records `p` are in the Program, and
the bytes `b` are the rest of the stream from a record's offset on. -/
def loadRecords (cfg : Config) (n : Size) (p : List Record) (b : List Byte) : LoadOutcome :=
  if b.length % recordBytes ≠ 0 then rejected .truncatedRecord
  else if cfg.progCapacity < p.length + b.length / recordBytes then .refuse .progCapacityExceeded
  else .ok n (p ++ recordsOf (b.length / recordBytes) b)

/-- What `Load` of R118 gives once the magic is accepted: `b` is the stream from the size's offset on. -/
def loadSize (cfg : Config) (b : List Byte) : LoadOutcome :=
  if b.length < 4 then rejected .truncatedHeader
  else if leSize (b.take 4) = 0 then rejected .zeroMemorySize
  else if cfg.memCapacity < (leSize (b.take 4)).toNat then .refuse .memCapacityExceeded
  else loadRecords cfg (leSize (b.take 4)) [] (b.drop 4)

theorem loadBytes_of_short (cfg : Config) {b : List Byte} (h : b.length < magicBytes) :
    loadBytes cfg b = rejected .truncatedHeader := if_pos h

theorem loadBytes_of_badMagic (cfg : Config) {b : List Byte} (hlen : magicBytes ≤ b.length)
    (h : b.take magicBytes ≠ magic) : loadBytes cfg b = rejected .badMagic :=
  (if_neg hlen.not_gt).trans (if_pos h)

theorem loadBytes_of_magic (cfg : Config) {b : List Byte} (hlen : magicBytes ≤ b.length)
    (h : b.take magicBytes = magic) : loadBytes cfg b = loadSize cfg (b.drop magicBytes) := by
  have hsize : b.length - magicBytes < 4 ↔ b.length < headerBytes := by
    simp only [magicBytes, headerBytes] at *
    omega
  have hbody : (b.drop magicBytes).drop 4 = b.drop headerBytes := List.drop_drop
  unfold loadBytes
  rw [if_neg hlen.not_gt, if_neg (not_not_intro h)]
  simp only [loadSize, loadRecords, rejected, hbody, List.length_drop, hsize, List.length_nil, Nat.zero_add,
    List.nil_append]

theorem loadSize_of_short (cfg : Config) {b : List Byte} (h : b.length < 4) :
    loadSize cfg b = rejected .truncatedHeader := if_pos h

theorem loadRecords_of_partial (cfg : Config) (n : Size) (p : List Record) {b : List Byte}
    (h : b.length % recordBytes ≠ 0) : loadRecords cfg n p b = rejected .truncatedRecord := if_pos h

theorem loadRecords_of_whole (cfg : Config) (n : Size) (p : List Record) {b : List Byte}
    (h : b.length % recordBytes = 0) :
    loadRecords cfg n p b =
      if cfg.progCapacity < p.length + b.length / recordBytes then .refuse .progCapacityExceeded
      else .ok n (p ++ recordsOf (b.length / recordBytes) b) := if_neg (not_not_intro h)

/-- R115: the first 25 bytes are the next record of the Program. -/
theorem loadRecords_append {r : List Byte} (h : r.length = recordBytes) (cfg : Config) (n : Size) (p : List Record)
    (b : List Byte) : loadRecords cfg n p (r ++ b) = loadRecords cfg n (p ++ [recordOfBytes r]) b := by
  have hmod : (r ++ b).length % recordBytes = b.length % recordBytes := by simp [h]
  have hdiv : (r ++ b).length / recordBytes = b.length / recordBytes + 1 := by
    rw [List.length_append, h, Nat.add_div_left _ (by decide)]
  have hcount : (p ++ [recordOfBytes r]).length + b.length / recordBytes =
      p.length + (b.length / recordBytes + 1) := by
    rw [List.length_append, List.length_singleton, Nat.add_assoc, Nat.add_comm 1]
  simp only [loadRecords, hmod, hdiv, hcount, recordsOf, List.take_left' h, List.drop_left' h, List.append_assoc,
    List.singleton_append]

/-! ## The header's size -/

theorem leNat_take_succ (n : Nat) (b : List Byte) :
    leNat (b.take (n + 1)) = (b.getD 0 0).toNat + 256 * leNat ((b.drop 1).take n) := by
  cases b <;> simp [leNat]

/-- R113: the size field is the little-endian value of the bytes at offsets 3 to 6. -/
theorem toNat_leSize_eq_headerSize (b : List Byte) :
    (leSize ((b.drop magicBytes).take 4)).toNat = headerSize b := by
  have hlt : leNat ((b.drop magicBytes).take 4) < 2 ^ 32 :=
    (leNat_lt _).trans_le (Nat.pow_le_pow_right (n := 256) (by decide) (List.length_take_le 4 _))
  have hsum : leNat ((b.drop magicBytes).take 4) = headerSize b := by
    simp only [leNat_take_succ, List.drop_drop, List.take_zero, leNat, headerSize, magicBytes,
      List.getD_eq_getElem?_getD, List.getElem?_drop, Nat.reduceAdd]
    omega
  rw [leSize, BitVec.toNat_ofNat, Nat.mod_eq_of_lt hlt, hsum]

/-- `Load` of a stream with a whole header and the right magic, on the value of its size field. -/
theorem loadBytes_of_header (cfg : Config) {b : List Byte} (hlen : headerBytes ≤ b.length)
    (hmagic : b.take magicBytes = magic) :
    loadBytes cfg b =
      if headerSize b = 0 then rejected .zeroMemorySize
      else if cfg.memCapacity < headerSize b then .refuse .memCapacityExceeded
      else loadRecords cfg (leSize ((b.drop magicBytes).take 4)) [] (b.drop headerBytes) := by
  have hmin : magicBytes ≤ b.length := le_trans (by decide) hlen
  have hsize : ¬ (b.drop magicBytes).length < 4 := by
    simp only [List.length_drop, magicBytes, headerBytes] at *
    omega
  have hzero : leSize ((b.drop magicBytes).take 4) = 0 ↔ headerSize b = 0 := by
    rw [← toNat_leSize_eq_headerSize]
    exact BitVec.toNat_eq
  have hbody : (b.drop magicBytes).drop 4 = b.drop headerBytes := List.drop_drop
  rw [loadBytes_of_magic cfg hmin hmagic]
  simp only [loadSize, hsize, hzero, toNat_leSize_eq_headerSize, hbody, if_false]

/-! ## What the Loader function rejects and what it accepts -/

/-- Settles O53: each clause is the first test of R118 that its stream does not pass. -/
theorem malformedStreamsFail : Obligations.MalformedStreamsFail := by
  intro cfg b
  have hcount : (b.drop headerBytes).length = b.length - 7 := List.length_drop
  refine ⟨loadBytes_of_short cfg, loadBytes_of_badMagic cfg, fun hlen hmagic hshort => ?_,
    fun hlen hmagic hzero => ?_, fun hlen hmagic hcap => ?_, fun hlen hmagic hzero hcap hpart => ?_,
    fun hlen hmagic hzero hcap hwhole hprog => ?_⟩
  · have hsize : (b.drop magicBytes).length < 4 := by
      rw [List.length_drop, magicBytes]
      omega
    rw [loadBytes_of_magic cfg hlen hmagic, loadSize_of_short cfg hsize]
  · rw [loadBytes_of_header cfg hlen hmagic, if_pos hzero]
  · rw [loadBytes_of_header cfg hlen hmagic, if_neg (by omega), if_pos hcap]
  · have hbody : (b.drop headerBytes).length % recordBytes ≠ 0 := hcount ▸ hpart
    rw [loadBytes_of_header cfg hlen hmagic, if_neg hzero, if_neg hcap.not_gt, loadRecords_of_partial _ _ _ hbody]
  · have hbody : (b.drop headerBytes).length % recordBytes = 0 := hcount ▸ hwhole
    have hmany : cfg.progCapacity < ([] : List Record).length + (b.drop headerBytes).length / recordBytes := by
      rw [hcount, List.length_nil, Nat.zero_add]
      exact hprog
    rw [loadBytes_of_header cfg hlen hmagic, if_neg hzero, if_neg hcap.not_gt, loadRecords_of_whole _ _ _ hbody,
      if_pos hmany]

@[simp] theorem recordsOf_length (n : Nat) (b : List Byte) : (recordsOf n b).length = n := by
  induction n generalizing b with
  | zero => rfl
  | succ n ih => rw [recordsOf, List.length_cons, ih]

/-- R115: record `i` is the one at stride `i`. -/
theorem recordsOf_getElem? {n i : Nat} (h : i < n) (b : List Byte) :
    (recordsOf n b)[i]? = some (recordOfBytes ((b.drop (recordBytes * i)).take recordBytes)) := by
  induction n generalizing i b with
  | zero => omega
  | succ n ih =>
    cases i with
    | zero => rfl
    | succ i =>
      rw [recordsOf, List.getElem?_cons_succ, ih (by omega), List.drop_drop, Nat.mul_succ, Nat.add_comm recordBytes]

theorem eq_of_loadRecords_eq_ok {cfg : Config} {n m : Size} {p : List Record} {b : List Byte}
    (h : loadRecords cfg n [] b = .ok m p) :
    m = n ∧ b.length % recordBytes = 0 ∧ p = recordsOf (b.length / recordBytes) b := by
  unfold loadRecords at h
  split at h
  · cases h
  split at h <;> cases h
  exact ⟨rfl, by omega, rfl⟩

/-- An accepted stream has passed every test of its header and every test of its records. -/
theorem header_of_loadBytes_eq_ok {cfg : Config} {b : List Byte} {n : Size} {p : List Record}
    (h : loadBytes cfg b = .ok n p) :
    headerBytes ≤ b.length ∧ b.take magicBytes = magic ∧ headerSize b ≠ 0 ∧
    loadRecords cfg (leSize ((b.drop magicBytes).take 4)) [] (b.drop headerBytes) = .ok n p := by
  obtain ⟨hshort, hbad, hpart, -⟩ := malformedStreamsFail cfg b
  have hlen3 : 3 ≤ b.length := by
    by_contra hlt
    cases (hshort (by omega)).symm.trans h
  have hmagic : b.take 3 = [0x4F, 0x52, 0x43] := by
    by_contra hne
    cases (hbad hlen3 hne).symm.trans h
  have hlen : 7 ≤ b.length := by
    by_contra hlt
    cases (hpart hlen3 hmagic (by omega)).symm.trans h
  rw [loadBytes_of_header cfg hlen hmagic] at h
  split at h
  · cases h
  split at h
  · cases h
  exact ⟨hlen, hmagic, ‹_›, h⟩

/-- Settles O8. -/
theorem acceptedStreamIsWellFormed : Obligations.AcceptedStreamIsWellFormed := by
  intro cfg b n p h
  obtain ⟨hlen, hmagic, hzero, hbody⟩ := header_of_loadBytes_eq_ok h
  obtain ⟨rfl, hwhole, rfl⟩ := eq_of_loadRecords_eq_ok hbody
  have hsize := toNat_leSize_eq_headerSize b
  refine ⟨hmagic, hsize, fun hn => hzero ?_, ?_, fun i hi => ?_⟩
  · rw [← hsize, hn]
    rfl
  · rw [recordsOf_length]
    simp only [List.length_drop, headerBytes, recordBytes] at *
    omega
  · rw [recordsOf_length] at hi
    rw [recordsOf_getElem? hi, List.drop_drop]
    rfl

/-! ## How a load ends -/

/-- R123: an input that is Unavailable before any byte fails the load. -/
theorem step_of_unavailable {s : State} (hs : s.phase = .load) (hin : s.inPort = .opened .unavailable)
    (hc : s.loader.consumed = 0) : step s = .next (s.failLoad .fileError .fileError) := by
  rw [step_load hs, loadStep, hin]
  exact if_pos hc

/-- Settles O9. -/
theorem unavailableInputIsFileError : Obligations.UnavailableInputIsFileError := fun s hs hin hc =>
  ⟨s.failLoad .fileError .fileError, step_of_unavailable hs hin hc, rfl, rfl, rfl, rfl, rfl, rfl, rfl⟩

/-- R7: no fatal class has the status of normal termination. -/
theorem code_ne_zero {codes : StatusCodes} (h : codes.wf) (c : FatalClass) : codes.code c ≠ 0 := by
  obtain ⟨hfile, hformat, haddress, -⟩ := h
  cases c with
  | fileError => exact hfile
  | formatError => exact hformat
  | addressError => exact haddress

/-- Settles O10: of the Loader's answers only the failed load halts, and a sound state has no earlier event. -/
theorem loadFailureEndsTheRun : Obligations.LoadFailureEndsTheRun := by
  intro s t hinv hs he ht
  obtain ⟨hip, htrace, -⟩ := hinv.loadFresh hs
  obtain ⟨-, -, -, hcodes⟩ := hinv.cfgLegal
  have hshape := loadStep_shape s
  rw [← step_load hs, he] at hshape
  cases hshape with
  | fail c d hclass =>
    refine ⟨rfl, hip, rfl, code_ne_zero hcodes c, ?_⟩
    rw [State.failLoad_trace, htrace]
    rcases hclass with ⟨rfl, rfl⟩ | ⟨rfl, f, rfl⟩
    · exact .inl ⟨rfl, rfl⟩
    · exact .inr ⟨f, rfl, rfl⟩
  | enter => cases ht
  | more _ _ hphase => simp [hphase, hs] at ht

/-- Settles O11: the state entered is sound (R24), and what it keeps of a sound state of phase LOAD is fresh. -/
theorem loadSuccessStartsTheRun : Obligations.LoadSuccessStartsTheRun := by
  intro s t hinv hs he ht
  obtain ⟨hip, htrace, -⟩ := hinv.loadFresh hs
  rw [step_load hs] at he
  have hsize : t.memorySize ≠ 0 := (hinv.loadStep hs he).runMemory ht
  have hshape := loadStep_shape s
  rw [he] at hshape
  cases hshape with
  | fail => cases ht
  | enter => exact ⟨hip, fun _ => rfl, hsize, htrace, hinv.statusZero (by simp [hs]), rfl, rfl⟩
  | more _ _ hphase => simp [hphase, hs] at ht

/-! ## Runs of the engine -/

section
variable {M : Host.Core} {s u : M.State}

theorem run_succ_of_next (h : M.step s = .next u) (k : Nat) : M.run (k + 1) s = M.run k u := by
  rw [Host.Core.run, h]

theorem run_succ_of_refused {r : M.Refusal} (h : M.step s = .refused r) (k : Nat) :
    M.run (k + 1) s = .refused r := by
  rw [Host.Core.run, h]

theorem run_one (s : M.State) : M.run 1 s = M.step s := by
  rw [Host.Core.run]
  cases M.step s <;> rfl

end

/-- R33: nothing happens after HALT, however many steps are taken. -/
theorem run_of_halt {s : State} (h : s.phase = .halt) (k : Nat) : Host.Core.run Sys2Proof.core k s = .next s := by
  induction k with
  | zero => rfl
  | succ k ih => exact (run_succ_of_next (M := Sys2Proof.core) (step_halt h) k).trans ih

/-! ## A load under way -/

/-- `u` agrees with `s` on every field that the end of a load keeps (R119, R120). -/
structure SameRun (s u : State) : Prop where
  cfg : u.cfg = s.cfg := by rfl
  status : u.status = s.status := by rfl
  ip : u.ip = s.ip := by rfl
  trace : u.trace = s.trace := by rfl

theorem afterLoad_congr {s u : State} (h : SameRun s u) (o : LoadOutcome) : u.afterLoad o = s.afterLoad o := by
  cases o with
  | ok n p => simp [State.afterLoad, State.enterRun, h.cfg, h.status, h.ip, h.trace]
  | fail c d => exact congrArg Host.Outcome.next (failLoad_congr ⟨h.cfg, h.ip, h.trace⟩ c d)
  | refuse r => rfl

/-- The engine is in phase LOAD and IN has still these bytes to deliver (R252). -/
structure Receiving (s : State) (rest : List Byte) : Prop where
  phase : s.phase = .load
  inPort : s.inPort = .opened (.bytes rest)

/-- One step for each byte still to come and one for end-of-stream end the load with this outcome. -/
def Loads (s : State) (rest : List Byte) (o : LoadOutcome) : Prop :=
  Host.Core.run Sys2Proof.core (rest.length + 1) s = s.afterLoad o

theorem loads_nil {s : State} {o : LoadOutcome} (h : Receiving s []) (he : endOfStream s = s.afterLoad o) :
    Loads s [] o := by
  have hstep : step s = endOfStream s := by rw [step_load h.phase, loadStep, h.inPort]
  exact (run_one (M := Sys2Proof.core) s).trans (hstep.trans he)

section
variable {s u : State} {b : Byte} {rest : List Byte} (h : Receiving s (b :: rest))
include h

theorem Receiving.step_eq : step s = afterByte (s.received b rest) := by
  rw [step_load h.phase, loadStep, h.inPort]
  rfl

theorem Receiving.received : Receiving (s.received b rest) rest := ⟨h.phase, rfl⟩

/-- A byte after which the load goes on. -/
theorem loads_of_next {o : LoadOutcome} (hu : afterByte (s.received b rest) = .next u) (hsame : SameRun s u)
    (hl : Loads u rest o) : Loads s (b :: rest) o :=
  (run_succ_of_next (M := Sys2Proof.core) (h.step_eq.trans hu) _).trans (Eq.trans hl (afterLoad_congr hsame o))

/-- A byte that shows a defect: the load has failed, and the steps left are steps of phase HALT. -/
theorem loads_of_failFormat {f : FormatDefect}
    (hu : afterByte (s.received b rest) = .next ((s.received b rest).failFormat f)) :
    Loads s (b :: rest) (rejected f) :=
  (run_succ_of_next (M := Sys2Proof.core) (h.step_eq.trans hu) _).trans (run_of_halt rfl _)

/-- A byte at which the load is refused. -/
theorem loads_of_refused {r : Refusal} (hu : afterByte (s.received b rest) = .refused r) :
    Loads s (b :: rest) (.refuse r) :=
  run_succ_of_refused (M := Sys2Proof.core) (h.step_eq.trans hu) _

end

/-! ## The three stages of the streaming deserializer -/

@[simp] theorem State.received_buffer (s : State) (b : Byte) (rest : List Byte) :
    (s.received b rest).loader.buffer = s.loader.buffer ++ [b] := rfl

/-- Whether `b` is read after the buffer or has just been put into it, the bytes are the same. -/
theorem State.received_buffer_append (s : State) (b : Byte) (rest : List Byte) :
    (s.received b rest).loader.buffer ++ rest = s.loader.buffer ++ b :: rest := by simp

/-- R114: the header is accepted, Memory has `n` cells, and the records are next. -/
def State.allocated (u : State) (n : Size) : State := { u.clearBuffer with memorySize := n, mem := [] }

@[simp] theorem State.allocated_program (u : State) (n : Size) : (u.allocated n).program = u.program := rfl

section
variable {u : State}

theorem afterByte_of_magicEnd (h : u.loader.consumed = magicBytes) : afterByte u = finishMagic u := if_pos h

theorem afterByte_of_sizeEnd (h : u.loader.consumed = headerBytes) : afterByte u = finishSize u := by
  rw [afterByte, if_neg (by rw [h]; decide), if_pos h]

theorem afterByte_of_recordEnd (h : headerBytes < u.loader.consumed)
    (hfull : u.loader.buffer.length = recordBytes) : afterByte u = finishRecord u := by
  have hmagic : u.loader.consumed ≠ magicBytes := by simp only [magicBytes, headerBytes] at *; omega
  rw [afterByte, if_neg hmagic, if_neg h.ne', if_pos ⟨h, hfull⟩]

theorem afterByte_of_inside (hmagic : u.loader.consumed ≠ magicBytes) (hsize : u.loader.consumed ≠ headerBytes)
    (hrecord : headerBytes < u.loader.consumed → u.loader.buffer.length ≠ recordBytes) :
    afterByte u = .next u := by
  rw [afterByte, if_neg hmagic, if_neg hsize, if_neg fun ⟨hpast, hfull⟩ => hrecord hpast hfull]

/-- Before the seventh byte no record can end. -/
theorem afterByte_of_header (hmagic : u.loader.consumed ≠ magicBytes) (h : u.loader.consumed < headerBytes) :
    afterByte u = .next u := afterByte_of_inside hmagic h.ne fun hpast => absurd hpast h.not_gt

theorem finishSize_of_zero (h : leSize u.loader.buffer = 0) :
    finishSize u = .next (u.failFormat .zeroMemorySize) := if_pos h

theorem finishSize_of_gt (h : leSize u.loader.buffer ≠ 0)
    (hcap : u.cfg.memCapacity < (leSize u.loader.buffer).toNat) :
    finishSize u = .refused .memCapacityExceeded := (if_neg h).trans (if_pos hcap)

theorem finishSize_of_le (h : leSize u.loader.buffer ≠ 0)
    (hcap : (leSize u.loader.buffer).toNat ≤ u.cfg.memCapacity) :
    finishSize u = .next (u.allocated (leSize u.loader.buffer)) := (if_neg h).trans (if_neg hcap.not_gt)

theorem inRecords_allocated {n : Size} (hc : u.loader.consumed = headerBytes) (hp : u.program = []) (hn : n ≠ 0) :
    InRecords (u.allocated n) where
  consumed := by simp [State.allocated, hc, hp]
  short := by simp [State.allocated, recordBytes]
  memorySize := hn

end

theorem endOfStream_of_header {s : State} (h : s.loader.consumed < headerBytes) :
    endOfStream s = s.afterLoad (rejected .truncatedHeader) := if_pos h

/-- R116, R117: end-of-stream after the header, with what is left of a record in the buffer. -/
theorem endOfStream_of_records {s : State} (h : InRecords s) :
    endOfStream s = s.afterLoad (loadRecords s.cfg s.memorySize s.program s.loader.buffer) := by
  obtain ⟨hc, hshort, -⟩ := h
  rw [endOfStream, if_neg (by omega)]
  by_cases hempty : s.loader.buffer = []
  · rw [if_neg (not_not_intro hempty), hempty, loadRecords_of_whole _ _ _ rfl, List.length_nil, Nat.zero_div,
      recordsOf, List.append_nil, Nat.add_zero]
    split <;> rfl
  · have hpart : s.loader.buffer.length % recordBytes ≠ 0 := by
      rw [Nat.mod_eq_of_lt hshort]
      exact mt List.length_eq_zero_iff.1 hempty
    rw [if_pos hempty, loadRecords_of_partial _ _ _ hpart]
    rfl

/-- R115, R116: after the header, the bytes still to come are taken as records. -/
theorem loads_records {s : State} {rest : List Byte} (h : Receiving s rest) (hs : InRecords s) :
    Loads s rest (loadRecords s.cfg s.memorySize s.program (s.loader.buffer ++ rest)) := by
  induction rest generalizing s with
  | nil =>
    rw [List.append_nil]
    exact loads_nil h (endOfStream_of_records hs)
  | cons b rest ih =>
    have hpast : headerBytes < (s.received b rest).loader.consumed := by
      rw [State.received_consumed, hs.consumed]
      omega
    rw [← State.received_buffer_append]
    by_cases hfull : (s.received b rest).loader.buffer.length = recordBytes
    · have hbyte := ByteTaken.recordEnd (recordOfBytes (s.received b rest).loader.buffer) hpast hfull
      rw [loadRecords_append hfull]
      exact loads_of_next h (afterByte_of_recordEnd hpast hfull) {} (ih ⟨h.phase, rfl⟩ (hs.byteTaken hbyte))
    · have hmagic : (s.received b rest).loader.consumed ≠ magicBytes := by
        simp only [magicBytes, headerBytes] at *
        omega
      have hbyte := ByteTaken.inside hmagic hpast.ne' fun _ => hfull
      exact loads_of_next h (afterByte_of_inside hmagic hpast.ne' fun _ => hfull) {}
        (ih h.received (hs.byteTaken hbyte))

/-- R113, R114: the byte that completes the size decides whether the records are taken. -/
theorem loads_sizeEnd {s : State} {b : Byte} {rest : List Byte} (h : Receiving s (b :: rest))
    (hc : (s.received b rest).loader.consumed = headerBytes)
    (hfull : (s.received b rest).loader.buffer.length = 4) (hp : s.program = []) :
    Loads s (b :: rest) (loadSize s.cfg ((s.received b rest).loader.buffer ++ rest)) := by
  have hlong : ¬ ((s.received b rest).loader.buffer ++ rest).length < 4 := by
    rw [List.length_append]
    omega
  have hafter := afterByte_of_sizeEnd hc
  rw [loadSize, if_neg hlong, List.take_left' hfull, List.drop_left' hfull]
  split
  · next hzero => exact loads_of_failFormat h (hafter.trans (finishSize_of_zero hzero))
  split
  · next hzero hcap => exact loads_of_refused h (hafter.trans (finishSize_of_gt hzero hcap))
  · next hzero hcap =>
    have hloads := loads_records (s := (s.received b rest).allocated _) (rest := rest) ⟨h.phase, rfl⟩
      (inRecords_allocated hc hp hzero)
    rw [State.allocated_program, State.received_program, hp] at hloads
    exact loads_of_next h (hafter.trans (finishSize_of_le hzero (Nat.not_lt.1 hcap))) {} hloads

/-- R113, R114: after the magic, the bytes still to come are taken as the size and the records. -/
theorem loads_size {s : State} {rest : List Byte} (h : Receiving s rest)
    (hc : s.loader.consumed = magicBytes + s.loader.buffer.length) (hshort : s.loader.buffer.length < 4)
    (hp : s.program = []) : Loads s rest (loadSize s.cfg (s.loader.buffer ++ rest)) := by
  induction rest generalizing s with
  | nil =>
    rw [List.append_nil, loadSize_of_short _ hshort]
    exact loads_nil h (endOfStream_of_header (by rw [hc, magicBytes, headerBytes]; omega))
  | cons b rest ih =>
    have hc' : (s.received b rest).loader.consumed = magicBytes + (s.received b rest).loader.buffer.length := by
      rw [State.received_consumed, State.received_length, hc, Nat.add_assoc]
    have hmagic : (s.received b rest).loader.consumed ≠ magicBytes := by
      rw [State.received_consumed]
      omega
    rw [← State.received_buffer_append]
    by_cases hfull : (s.received b rest).loader.buffer.length = 4
    · exact loads_sizeEnd h (by rw [hc', hfull]; rfl) hfull hp
    · have hinside : (s.received b rest).loader.buffer.length < 4 := by
        rw [State.received_length] at *
        omega
      have hlt : (s.received b rest).loader.consumed < headerBytes := by
        rw [hc', magicBytes, headerBytes]
        omega
      exact loads_of_next h (afterByte_of_header hmagic hlt) {} (ih h.received hc' hinside hp)

/-- R112: from the start, the bytes still to come are taken as the magic, the size and the records. -/
theorem loads_magic {s : State} {rest : List Byte} (h : Receiving s rest)
    (hc : s.loader.consumed = s.loader.buffer.length) (hshort : s.loader.buffer.length < magicBytes)
    (hp : s.program = []) : Loads s rest (loadBytes s.cfg (s.loader.buffer ++ rest)) := by
  induction rest generalizing s with
  | nil =>
    rw [List.append_nil, loadBytes_of_short _ hshort]
    exact loads_nil h (endOfStream_of_header (by rw [hc]; exact hshort.trans (by decide)))
  | cons b rest ih =>
    have hc' : (s.received b rest).loader.consumed = (s.received b rest).loader.buffer.length := by
      rw [State.received_consumed, State.received_length, hc]
    rw [← State.received_buffer_append]
    by_cases hfull : (s.received b rest).loader.buffer.length = magicBytes
    · have hlong : magicBytes ≤ ((s.received b rest).loader.buffer ++ rest).length := by
        rw [List.length_append, hfull]
        omega
      have htake : ((s.received b rest).loader.buffer ++ rest).take magicBytes = (s.received b rest).loader.buffer :=
        List.take_left' hfull
      have hafter := afterByte_of_magicEnd (hc'.trans hfull)
      by_cases hmagic : (s.received b rest).loader.buffer = magic
      · rw [loadBytes_of_magic _ hlong (htake.trans hmagic), List.drop_left' hfull]
        exact loads_of_next h (hafter.trans (if_pos hmagic)) {}
          (loads_size (s := (s.received b rest).clearBuffer) ⟨h.phase, rfl⟩ (hc'.trans hfull) (by simp) hp)
      · rw [loadBytes_of_badMagic _ hlong (by rwa [htake])]
        exact loads_of_failFormat h (hafter.trans (if_neg hmagic))
    · have hinside : (s.received b rest).loader.buffer.length < magicBytes := by
        rw [State.received_length] at *
        omega
      have hlt : (s.received b rest).loader.consumed < headerBytes := by
        rw [hc']
        exact hinside.trans (by decide)
      exact loads_of_next h (afterByte_of_header (hc'.trans_ne hfull) hlt) {} (ih h.received hc' hinside hp)

/-- Settles O7: a stream is taken stage by stage from offset 0, and an Unavailable input fails in its one step. -/
theorem streamingLoadIsTheLoadFunction : Obligations.StreamingLoadIsTheLoadFunction := by
  intro s input hs hloader hp hin
  cases input with
  | unavailable =>
    have hstep := step_of_unavailable hs hin (congrArg LoaderState.consumed hloader)
    exact (run_one (M := Sys2Proof.core) s).trans hstep
  | bytes b =>
    have hloads := loads_magic ⟨hs, hin⟩ (by rw [hloader]; rfl) (by rw [hloader]; decide) hp
    rw [hloader] at hloads
    exact hloads

end Sys2Proof.Machine
end

section
/-! The obligations of 41_fetch_dispatch.md: what the opcode byte selects, what a step of phase RUN is, how a run ends,
where `ip` goes, and a run that never ends. -/

namespace Sys2Proof

/-! ## What the opcode byte selects -/

theorem OpcodeMap.mnemonic_eq_none_iff {map : OpcodeMap} {b : Byte} :
    map.mnemonic b = none ↔ ∀ m, map.code m ≠ b := by
  simp [OpcodeMap.mnemonic, Mnemonic.mem_all]

/-- R144: a record with an operation's byte decodes to that operation, its operands untouched. -/
theorem decodeRecord_of_code {map : OpcodeMap} (hmap : map.wf) {r : Record} {m : Mnemonic}
    (h : map.code m = r.opcode) : decodeRecord map r = .ok (Instr.make m r.op1 r.op2 r.op3) := by
  have hm : map.mnemonic r.opcode = some m := h ▸ OpcodeMap.mnemonic_code hmap m
  rw [decodeRecord, hm]

/-- R89: a record whose byte no operation has does not decode, under any map. -/
theorem decodeRecord_of_unassigned {map : OpcodeMap} {r : Record} (h : ∀ m, map.code m ≠ r.opcode) :
    decodeRecord map r = .error (.unknownOpcode r.opcode) := by
  rw [decodeRecord, OpcodeMap.mnemonic_eq_none_iff.2 h]

/-- Settles O3. -/
theorem opcodeByteAloneSelects : Obligations.OpcodeByteAloneSelects := fun _ _ hmap =>
  ⟨fun _ => decodeRecord_of_code hmap, decodeRecord_of_unassigned⟩

end Sys2Proof

namespace Sys2Proof.Machine

open Sys2Proof.Spec

/-- R144 for every operation at once. -/
theorem selected_code (m : Mnemonic) : Selected (fun map => map.code m) (Instr.make m) :=
  fun _ hmap _ _ _ => decodeRecord_of_code hmap rfl

/-- Settles O20. -/
theorem nopOnlyAdvances : Obligations.NopOnlyAdvances := ⟨selected_code .nop, exec_nop⟩

/-! ## The step of phase RUN -/

section
variable {s : State} (hs : s.phase = .run)
include hs

/-- R143. -/
theorem step_of_pastEnd (h : s.instructionCount ≤ s.ip.toNat) : step s = .next s.haltNormally := by
  rw [step_run hs, runStep, s.fetch_eq_none_iff.2 h]

variable {r : Record} (hr : s.fetch = some r)
include hr

/-- R140, R141 and R144. -/
theorem step_of_decodes {i : Instr} (h : decodeRecord s.cfg.opcodeMap r = .ok i) : step s = exec i s := by
  simp only [step_run hs, runStep, hr, h]

/-- R147. -/
theorem step_of_unassigned (h : ∀ m, s.cfg.opcodeMap.code m ≠ r.opcode) :
    step s = .next (s.unknownOpcode r.opcode) := by
  simp only [step_run hs, runStep, hr, decodeRecord_of_unassigned h]

end

/-- Settles O12. -/
theorem stepRunsTheDecodedInstruction : Obligations.StepRunsTheDecodedInstruction :=
  fun _ _ _ hs hr hi _ => step_of_decodes hs hr hi

/-- Settles O13. -/
theorem fetchPastTheEndHaltsNormally : Obligations.FetchPastTheEndHaltsNormally :=
  fun _ hs h => step_of_pastEnd hs h

/-- Settles O14. -/
theorem unknownOpcodeIsSteppedOver : Obligations.UnknownOpcodeIsSteppedOver :=
  fun _ _ hs hr h => step_of_unassigned hs hr h

/-! ## How a run ends -/

/-- A running engine that halts has run past the end of its Program, or a record it still had raised AddressError. -/
theorem runStep_halt_cases {s t : State} (hs : s.phase = .run) (h : runStep s = .next t) (ht : t.phase = .halt) :
    (s.instructionCount ≤ s.ip.toNat ∧ t = s.haltNormally) ∨
    (s.ip.toNat < s.instructionCount ∧ ∃ k v, t = s.raiseAddressError k v) := by
  rcases runStep_cases s with ⟨hf, e⟩ | ⟨r, i, hf, -, e⟩ | ⟨r, -, -, e⟩ <;> rw [e] at h
  · exact .inl ⟨s.fetch_eq_none_iff.1 hf, (Host.Outcome.next.inj h).symm⟩
  · have hip := State.lt_of_fetch hf
    rcases goesOn_or_addressError_of_exec hip h with hgo | haddress
    · simp [hgo.phase, hs] at ht
    · exact .inr ⟨hip, haddress⟩
  · cases h
    simp [hs] at ht

/-- Settles O48: normal termination writes 0, and a legal code of AddressError is not 0. -/
theorem statusZeroMeansTheProgramRanOut : Obligations.StatusZeroMeansTheProgramRanOut := by
  intro s t hcfg hs he ht
  obtain ⟨-, -, -, hcodes⟩ := hcfg
  rcases runStep_halt_cases hs (step_run hs ▸ he) ht with ⟨hend, rfl⟩ | ⟨hip, k, v, rfl⟩
  · exact ⟨iff_of_true rfl hend, fun hne => absurd rfl hne⟩
  · exact ⟨iff_of_false (code_ne_zero hcodes .addressError) hip.not_ge, fun _ => rfl⟩

/-! ## The `ip` update -/

/-- `next` of R142: where `ip` goes if the instruction does not halt. -/
def nextIp (s : State) : Instr → Word
  | .jmp a _ _ => s.readCell a.toNat
  | .sgz a _ _ => if 0 < cell s a then s.ip + 2 else s.ip + 1
  | _ => s.ip + 1

theorem nextIp_jmp (s : State) (a b c : Word) : nextIp s (.jmp a b c) = s.readCell a.toNat := rfl

theorem nextIp_sgz_of_pos {s : State} {a : Word} (h : 0 < cell s a) (b c : Word) :
    nextIp s (.sgz a b c) = s.ip + 2 := if_pos h

theorem nextIp_sgz_of_nonpos {s : State} {a : Word} (h : cell s a ≤ 0) (b c : Word) :
    nextIp s (.sgz a b c) = s.ip + 1 := if_neg h.not_gt

/-- Every operation but the two of 43_control.md goes to the next record. -/
theorem nextIp_of_ne {i : Instr} (s : State) (hjmp : i.mnemonic ≠ .jmp) (hsgz : i.mnemonic ≠ .sgz) :
    nextIp s i = s.ip + 1 := by
  cases i with
  | jmp => exact absurd rfl hjmp
  | sgz => exact absurd rfl hsgz
  | _ => rfl

/-- An instruction that writes a cell leaves control alone (R60). -/
theorem nextIp_of_destinationCell {i : Instr} {s : State} {d : Nat} (h : destinationCell s i = some d) :
    nextIp s i = s.ip + 1 := by
  cases i with
  | jmp => cases h
  | sgz => cases h
  | _ => rfl

/-- The one `ip` update (R142): an instruction that goes on leaves `next`. -/
theorem ip_eq_nextIp_of_exec {i : Instr} {s t : State} (h : exec i s = .next t) (ht : t.phase = .run) :
    t.ip = nextIp s i := by
  have hshape := exec_shape i s
  rw [h] at hshape
  cases hshape with
  | advance hi => exact (nextIp_of_ne s (by simp [hi]) (by simp [hi])).symm
  | noSkip a b c hi _ hcell => exact hi ▸ (nextIp_sgz_of_nonpos hcell b c).symm
  | skip a b c hi _ hcell => exact hi ▸ (nextIp_sgz_of_pos hcell b c).symm
  | jump a b c hi => exact hi ▸ (nextIp_jmp s a b c).symm
  | write _ _ _ hdest => exact (nextIp_of_destinationCell hdest).symm
  | out _ _ _ hi => exact hi ▸ rfl
  | sleep _ _ _ hi => exact hi ▸ rfl
  | zeroDivisor hi =>
    rcases hi with hi | hi <;> exact (nextIp_of_ne s (by simp [hi]) (by simp [hi])).symm
  | addressError => cases ht

/-- R181: a JMP that goes on has passed its target test. -/
theorem isTarget_of_exec_jmp {a b c : Word} {s t : State} (h : exec (.jmp a b c) s = .next t)
    (ht : t.phase = .run) : s.isTarget (s.readCell a.toNat) := by
  rw [exec_jmp, execJmp] at h
  rcases checked_cases s a _ with ⟨-, e⟩ | ⟨-, e⟩ <;> rw [e] at h
  · split at h
    · assumption
    · cases h
      cases ht
  · cases h
    cases ht

/-- Settles O50: `next` of each operation, and the target test of JMP. -/
theorem instructionPointerUpdate : Obligations.InstructionPointerUpdate := by
  intro i s t _ h ht
  have hip := ip_eq_nextIp_of_exec h ht
  refine ⟨fun hjmp hsgz => ?_, fun a b c hi => ?_, fun a b c hi => ?_⟩
  · rw [hip, nextIp_of_ne s hjmp hsgz]
  · subst hi
    exact ⟨fun hpos => hip.trans (nextIp_sgz_of_pos hpos b c),
      fun hneg => hip.trans (nextIp_sgz_of_nonpos hneg b c)⟩
  · subst hi
    have hcell : t.ip = s.readCell a.toNat := hip.trans (nextIp_jmp s a b c)
    exact ⟨hcell, hcell ▸ State.toNat_lt_of_isTarget (isTarget_of_exec_jmp h ht)⟩

/-! ## A run that never ends -/

/-- R181, both tests passed. -/
theorem exec_jmp_of_isTarget {s : State} {a : Word} (ha : s.inRange a) (ht : s.isTarget (s.readCell a.toNat))
    (b c : Word) : exec (.jmp a b c) s = .next (s.jumpTo (s.readCell a.toNat)) := by
  rw [exec_jmp, execJmp, checked_of_inRange _ ha, if_pos ht]

/-- A state that a step gives back is given back by any number of steps. -/
theorem run_of_step_eq_self {M : Host.Core} {s : M.State} (h : M.step s = .next s) (k : Nat) :
    M.run k s = .next s := by
  induction k with
  | zero => rfl
  | succ k ih => exact (run_succ_of_next h k).trans ih

/-- A JMP to its own index changes nothing: the index of a record that was fetched is a legal target. -/
theorem exec_jmp_self {s : State} {a : Word} (hlt : s.ip.toNat < s.instructionCount)
    (hlen : s.instructionCount ≤ 2 ^ 63) (ha : s.inRange a) (hcell : s.readCell a.toNat = s.ip) (b c : Word) :
    exec (.jmp a b c) s = .next s := by
  have htarget : s.isTarget (s.readCell a.toNat) := hcell ▸ (s.isTarget_iff s.ip hlen).2 hlt
  rw [exec_jmp_of_isTarget ha htarget, hcell]
  rfl

/-- Settles O52, by induction on the number of steps. -/
theorem selfJumpRunsForever : Obligations.SelfJumpRunsForever := by
  intro s r a b c hs hr hi ha hcell hlen k
  have hstep : step s = .next s :=
    (step_of_decodes hs hr hi).trans (exec_jmp_self (State.lt_of_fetch hr) hlen ha hcell b c)
  exact run_of_step_eq_self (M := Sys2Proof.core) hstep k

end Sys2Proof.Machine
end

section
/-! The obligations of 42_data_movement.md: the one write of SET, LOAD and STORE, and the checks before it. -/

namespace Sys2Proof.Machine

open Sys2Proof.Spec

/-- One write and the default advance is all that R161, R163 and R166 change. -/
theorem writesOnly_writeCell_advance (s : State) (d : Nat) (v : Word) : WritesOnly s (s.writeCell d v).advance d v :=
  have ⟨hsame, hother, _⟩ := writeReplacesOneCell s d v
  ⟨hsame, hother, rfl⟩

/-- Settles O21. -/
theorem setWritesTheImmediate : Obligations.SetWritesTheImmediate := by
  refine ⟨selected_code .set, fun op1 op2 op3 s => ⟨fun h1 => ?_, fun h1 => ?_⟩⟩
  · refine ⟨_, ?_, writesOnly_writeCell_advance s op1.toNat op2⟩
    rw [exec_set, execSet, checked_of_inRange _ h1]
  · rw [exec_set, execSet, checked_eq_addressHalt _ h1]

/-! ## The checks before the pointer is followed -/

section
variable {s : State} {op1 op2 : Word} (h1 : s.inRange op1) (h2 : s.inRange op2) (op3 : Word)
include h1 h2

/-- R163 with both operands accepted: what is left is the check of the source pointer. -/
theorem exec_load_of_inRange : exec (.load op1 op2 op3) s =
    checked s (s.readCell op2.toNat) fun t => .next (s.writeCell op1.toNat (s.readCell t)).advance := by
  rw [exec_load, execLoad, checked_of_inRange _ h1, checked_of_inRange _ h2]

/-- R166 with both operands accepted: what is left is the check of the destination pointer. -/
theorem exec_store_of_inRange : exec (.store op1 op2 op3) s =
    checked s (s.readCell op1.toNat) fun t => .next (s.writeCell t (s.readCell op2.toNat)).advance := by
  rw [exec_store, execStore, checked_of_inRange _ h1, checked_of_inRange _ h2]

end

/-- Settles O22, one clause for each of the three checks. -/
theorem loadReadsThroughThePointer : Obligations.LoadReadsThroughThePointer := by
  refine ⟨selected_code .load, fun op1 op2 op3 s =>
    ⟨fun h1 h2 ht => ⟨_, ?_, writesOnly_writeCell_advance s _ _⟩, fun h1 => ?_, fun h1 h2 => ?_, fun h1 h2 ht => ?_⟩⟩
  · rw [exec_load_of_inRange h1 h2, checked_of_inRange _ ht]
  · rw [exec_load, execLoad, checked_eq_addressHalt _ h1]
  · rw [exec_load, execLoad, checked_of_inRange _ h1, checked_eq_addressHalt _ h2]
  · rw [exec_load_of_inRange h1 h2, checked_eq_addressHalt _ ht]

/-- Settles O23, one clause for each of the three checks. -/
theorem storeWritesThroughThePointer : Obligations.StoreWritesThroughThePointer := by
  refine ⟨selected_code .store, fun op1 op2 op3 s =>
    ⟨fun h1 h2 ht => ⟨_, ?_, writesOnly_writeCell_advance s _ _⟩, fun h1 => ?_, fun h1 h2 => ?_, fun h1 h2 ht => ?_⟩⟩
  · rw [exec_store_of_inRange h1 h2, checked_of_inRange _ ht]
  · rw [exec_store, execStore, checked_eq_addressHalt _ h1]
  · rw [exec_store, execStore, checked_of_inRange _ h1, checked_eq_addressHalt _ h2]
  · rw [exec_store_of_inRange h1 h2, checked_eq_addressHalt _ ht]

end Sys2Proof.Machine
end

section
/-! The obligations of 43_control.md: the target test of JMP, the signed test of SGZ, and the `ip` each leaves. -/

namespace Sys2Proof.Machine

open Sys2Proof.Spec

/-! ## JMP -/

/-- The target test of R181, on the signed value of the cell. -/
theorem State.isTarget_readCell_iff (s : State) (a : Word) :
    s.isTarget (s.readCell a.toNat) ↔ 0 ≤ cell s a ∧ cell s a < (s.program.length : Int) := Iff.rfl

/-- R181, the address test passed and the target test failed: the halt names the target. -/
theorem exec_jmp_of_not_isTarget {s : State} {a : Word} (ha : s.inRange a)
    (ht : ¬ s.isTarget (s.readCell a.toNat)) (b c : Word) :
    exec (.jmp a b c) s = .next (addressHalt s .jumpTarget (s.readCell a.toNat)) := by
  rw [exec_jmp, execJmp, checked_of_inRange _ ha, if_neg ht, State.raiseAddressError_eq_addressHalt]

/-- Settles O24, one clause for each outcome of the two tests. -/
theorem jmpGoesToTheCellsValue : Obligations.JmpGoesToTheCellsValue := by
  refine ⟨selected_code .jmp, fun op1 op2 op3 s => ⟨fun h1 hlo hhi => ?_, fun h1 ht => ?_, fun h1 => ?_⟩⟩
  · exact exec_jmp_of_isTarget h1 ((s.isTarget_readCell_iff op1).2 ⟨hlo, hhi⟩) op2 op3
  · exact exec_jmp_of_not_isTarget h1 (mt (s.isTarget_readCell_iff op1).1 ht) op2 op3
  · rw [exec_jmp, execJmp, checked_eq_addressHalt _ h1]

/-! ## SGZ -/

/-- R184, the address test passed: `ip` goes to `next` of R142 and nothing else changes. -/
theorem exec_sgz_of_inRange {s : State} {a : Word} (ha : s.inRange a) (b c : Word) :
    exec (.sgz a b c) s = .next { s with ip := nextIp s (.sgz a b c) } := by
  rw [exec_sgz, execSgz, checked_of_inRange _ ha]
  by_cases hcell : 0 < cell s a
  · rw [nextIp_sgz_of_pos hcell]
    exact if_pos hcell
  · rw [nextIp_sgz_of_nonpos (not_lt.1 hcell)]
    exact if_neg hcell

/-- Settles O25, one clause for each sign of the cell and one for the failed address test. -/
theorem sgzSkipsOneIfPositive : Obligations.SgzSkipsOneIfPositive := by
  refine ⟨selected_code .sgz, fun op1 op2 op3 s => ⟨fun h1 hpos => ?_, fun h1 hneg => ?_, fun h1 => ?_⟩⟩
  · rw [exec_sgz_of_inRange h1, nextIp_sgz_of_pos hpos]
  · rw [exec_sgz_of_inRange h1, nextIp_sgz_of_nonpos hneg]
  · rw [exec_sgz, execSgz, checked_eq_addressHalt _ h1]

end Sys2Proof.Machine
end

section
/-! The obligations of 44_arithmetic.md: the exact results and their narrowing to a cell, the overflow settings, the
zero divisor, and which instructions can fault. -/

namespace Sys2Proof.Machine

open Sys2Proof.Spec

/-! ## Exact integers and cells -/

/-- Narrowing to a cell is `wrap64` of R9 (D7). -/
theorem toInt_wrap64 (z : Int) : (wrap64 z).toInt = wrapInt z := by
  rw [wrap64, BitVec.toInt_ofInt, Int.bmod_def, wrapInt]
  norm_num

theorem wrap64_toInt (v : Word) : wrap64 v.toInt = v := BitVec.ofInt_toInt

theorem wrap64_add (y z : Int) : wrap64 (y + z) = wrap64 y + wrap64 z := BitVec.ofInt_add y z

theorem wrap64_mul (y z : Int) : wrap64 (y * z) = wrap64 y * wrap64 z := BitVec.ofInt_mul y z

theorem inInt64_toInt (v : Word) : inInt64 v.toInt := by
  have hlo := v.le_toInt
  have hhi := v.toInt_lt
  unfold inInt64
  omega

theorem wrapInt_of_inInt64 {z : Int} (h : inInt64 z) : wrapInt z = z := by
  unfold inInt64 at h
  unfold wrapInt
  split <;> omega

theorem fitsInt64_iff (z : Int) : fitsInt64 z ↔ inInt64 z := by
  simp only [fitsInt64, inInt64, int64Min, int64Max]
  omega

/-! ## The quotient rounded toward zero and its remainder -/

/-- The model's division is `tdiv` of R204 (D8). -/
theorem tdiv_eq_truncatedQuotient (a b : Int) : a.tdiv b = truncatedQuotient a b := by
  rw [truncatedQuotient, ← Int.sign_mul_natAbs (a.tdiv b), Int.sign_tdiv, Int.natAbs_tdiv]
  split
  next hlt => rw [Nat.div_eq_of_lt hlt]; simp
  next => rfl

/-- The remainder of R205 is the one that goes with the quotient rounded toward zero. -/
theorem sub_truncatedQuotient_mul (a b : Int) : a - truncatedQuotient a b * b = a.tmod b := by
  rw [← tdiv_eq_truncatedQuotient, Int.tmod_def, Int.mul_comm]

theorem natAbs_tmod_lt (a : Int) {b : Int} (hb : b ≠ 0) : (a.tmod b).natAbs < b.natAbs := by
  rw [Int.natAbs_tmod]
  exact Nat.mod_lt _ (Int.natAbs_pos.2 hb)

theorem tmod_eq_zero_or_sign_eq (a b : Int) : a.tmod b = 0 ∨ (a.tmod b).sign = a.sign := by
  by_cases hdvd : b ∣ a
  · exact .inl (Int.tmod_eq_zero_of_dvd hdvd)
  · exact .inr (by rw [Int.sign_tmod, if_neg hdvd])

theorem inInt64_tmod (a : Int) {b : Int} (hb : inInt64 b) (h0 : b ≠ 0) : inInt64 (a.tmod b) := by
  have hlt := natAbs_tmod_lt a h0
  unfold inInt64 at *
  omega

/-- Only a division by -1 can leave the i64 range: by 0 and 1 it gives 0 and the dividend, and any other divisor at
least halves the magnitude. -/
theorem inInt64_tdiv {a b : Int} (ha : inInt64 a) (hb : b ≠ -1) : inInt64 (a.tdiv b) := by
  obtain rfl | rfl | htwo : b = 0 ∨ b = 1 ∨ 2 ≤ b.natAbs := by omega
  · simp [inInt64]
  · rwa [Int.tdiv_one]
  · have hhalf : (a.tdiv b).natAbs ≤ a.natAbs / 2 := by
      rw [Int.natAbs_tdiv]
      exact Nat.div_le_div_left htwo two_pos
    unfold inInt64 at *
    omega

/-- The quotient that is no i64 is INT64_MIN by -1 (R209). -/
theorem inInt64_tdiv_iff {a : Int} (ha : inInt64 a) (b : Int) :
    inInt64 (a.tdiv b) ↔ ¬ (a = -2 ^ 63 ∧ b = -1) := by
  by_cases hb : b = -1
  · subst hb
    rw [Int.tdiv_neg, Int.tdiv_one]
    unfold inInt64 at *
    omega
  · exact iff_of_true (inInt64_tdiv ha hb) fun h => hb h.2

/-! ## The overflow tests and the one write -/

theorem arithOverflows_iff (z : Int) : arithOverflows z ↔ ¬ inInt64 z := by
  rw [arithOverflows, Bool.not_eq_true', decide_eq_false_iff_not, fitsInt64_iff]

theorem divOverflows_iff {a : Int} (ha : inInt64 a) (b : Int) :
    divOverflows a b ↔ a = -2 ^ 63 ∧ b = -1 :=
  (arithOverflows_iff (a.tdiv b)).trans (inInt64_tdiv_iff ha b).not_left

/-- R210 for a case `defined` that does not overflow: under `wrap` or in that case one cell is written, otherwise the
step is the model fault. -/
theorem writeResult_writes_or_faults {p : Bool} {defined : Prop} (hp : p ↔ ¬ defined) (s : State)
    (mode : OverflowMode) (d : Nat) (z : Int) :
    (mode = .wrap ∨ defined →
      ∃ t v, writeResult s mode p d z = .next t ∧ WritesOnly s t d v ∧ v.toInt = wrapInt z) ∧
    (mode = .fault → ¬ defined → writeResult s mode p d z = .fault (.arithOverflow s.ip)) := by
  rcases writeResult_cases s mode p d z with ⟨hwrites, h⟩ | ⟨⟨hmode, hover⟩, h⟩ <;> rw [h]
  · exact ⟨fun _ => ⟨_, _, rfl, writesOnly_writeCell_advance s d _, toInt_wrap64 z⟩,
      fun hmode hnot => absurd ⟨hmode, hp.2 hnot⟩ hwrites⟩
  · refine ⟨?_, fun _ _ => rfl⟩
    rintro (hwrap | hdefined)
    · exact nomatch hmode.symm.trans hwrap
    · exact absurd hdefined (hp.1 hover)

/-! ## The four instructions with their operands accepted -/

theorem cell_eq_zero_iff (s : State) (a : Word) : cell s a = 0 ↔ s.readCell a.toNat = 0 := by
  rw [← BitVec.toInt_inj]
  rfl

section
variable {s : State} {op1 op2 op3 : Word} (h1 : s.inRange op1) (h2 : s.inRange op2) (h3 : s.inRange op3)
include h1 h2 h3

theorem exec_add_of_inRange : exec (.add op1 op2 op3) s = writeResult s s.cfg.arithOverflow
    (arithOverflows (cell s op2 + cell s op3)) op1.toNat (cell s op2 + cell s op3) := by
  rw [exec_add, execAdd, withTernary_of_inRange _ h1 h2 h3, cell, cell]

theorem exec_mul_of_inRange : exec (.mul op1 op2 op3) s = writeResult s s.cfg.arithOverflow
    (arithOverflows (cell s op2 * cell s op3)) op1.toNat (cell s op2 * cell s op3) := by
  rw [exec_mul, execMul, withTernary_of_inRange _ h1 h2 h3, cell, cell]

theorem exec_div_of_ne_zero (h0 : cell s op3 ≠ 0) : exec (.div op1 op2 op3) s = writeResult s s.cfg.divOverflow
    (divOverflows (cell s op2) (cell s op3)) op1.toNat (truncatedQuotient (cell s op2) (cell s op3)) := by
  rw [exec_div, execDiv, withTernary_of_inRange _ h1 h2 h3, if_neg (mt (cell_eq_zero_iff s op3).2 h0),
    tdiv_eq_truncatedQuotient, cell, cell]

theorem exec_mod_of_ne_zero (h0 : cell s op3 ≠ 0) : exec (.mod op1 op2 op3) s = writeResult s s.cfg.divOverflow
    (divOverflows (cell s op2) (cell s op3)) op1.toNat
    (cell s op2 - truncatedQuotient (cell s op2) (cell s op3) * cell s op3) := by
  rw [exec_mod, execMod, withTernary_of_inRange _ h1 h2 h3, if_neg (mt (cell_eq_zero_iff s op3).2 h0),
    tdiv_eq_truncatedQuotient, cell, cell]

theorem exec_div_of_eq_zero (h0 : cell s op3 = 0) :
    exec (.div op1 op2 op3) s = .next (s.recover (.arithmeticError s.ip .div)) := by
  rw [exec_div, execDiv, withTernary_of_inRange _ h1 h2 h3, if_pos ((cell_eq_zero_iff s op3).1 h0)]

theorem exec_mod_of_eq_zero (h0 : cell s op3 = 0) :
    exec (.mod op1 op2 op3) s = .next (s.recover (.arithmeticError s.ip .mod)) := by
  rw [exec_mod, execMod, withTernary_of_inRange _ h1 h2 h3, if_pos ((cell_eq_zero_iff s op3).1 h0)]

end

/-- Settles O26. -/
theorem addWritesTheWrappedSum : Obligations.AddWritesTheWrappedSum := by
  refine ⟨selected_code .add, fun op1 op2 op3 s h1 h2 h3 => ?_⟩
  rw [exec_add_of_inRange h1 h2 h3]
  exact writeResult_writes_or_faults (arithOverflows_iff _) s _ _ _

/-- Settles O27. -/
theorem mulWritesTheWrappedProduct : Obligations.MulWritesTheWrappedProduct := by
  refine ⟨selected_code .mul, fun op1 op2 op3 s h1 h2 h3 => ?_⟩
  rw [exec_mul_of_inRange h1 h2 h3]
  exact writeResult_writes_or_faults (arithOverflows_iff _) s _ _ _

/-- Settles O28. -/
theorem divWritesTheTruncatedQuotient : Obligations.DivWritesTheTruncatedQuotient := by
  refine ⟨selected_code .div, fun op1 op2 op3 s h1 h2 h3 h0 => ?_⟩
  rw [exec_div_of_ne_zero h1 h2 h3 h0]
  have hover := (divOverflows_iff (inInt64_toInt (s.readCell op2.toNat)) (cell s op3)).trans not_not.symm
  obtain ⟨hwrites, hfaults⟩ := writeResult_writes_or_faults hover s _ _ _
  exact ⟨hwrites, fun hmode ha hb => hfaults hmode (not_not_intro ⟨ha, hb⟩)⟩

/-- Settles O29: the remainder is always an i64, so narrowing it to a cell keeps it. -/
theorem modWritesTheRemainder : Obligations.ModWritesTheRemainder := by
  refine ⟨selected_code .mod, fun op1 op2 op3 s h1 h2 h3 h0 => ?_⟩
  have hrem : inInt64 (cell s op2 - truncatedQuotient (cell s op2) (cell s op3) * cell s op3) := by
    rw [sub_truncatedQuotient_mul]
    exact inInt64_tmod _ (inInt64_toInt _) h0
  rw [exec_mod_of_ne_zero h1 h2 h3 h0]
  have hover := (divOverflows_iff (inInt64_toInt (s.readCell op2.toNat)) (cell s op3)).trans not_not.symm
  obtain ⟨hwrites, hfaults⟩ := writeResult_writes_or_faults hover s _ _ _
  rw [wrapInt_of_inInt64 hrem] at hwrites
  exact ⟨hwrites, fun hmode ha hb => hfaults hmode (not_not_intro ⟨ha, hb⟩)⟩

/-- Settles O30. -/
theorem zeroDivisorIsRecoverable : Obligations.ZeroDivisorIsRecoverable := fun _ _ _ _ h1 h2 h3 h0 =>
  ⟨exec_div_of_eq_zero h1 h2 h3 h0, exec_mod_of_eq_zero h1 h2 h3 h0⟩

/-! ## Laws of the results -/

/-- Settles O35, from what DIV and MOD write: modulo 2^64 the narrowing of the quotient is no loss. -/
theorem quotientAndRemainderFitTogether : Obligations.QuotientAndRemainderFitTogether := by
  intro op1 op2 op3 s h1 h2 h3 h0 hwrap
  obtain ⟨t, q, hdiv, ⟨hq, -⟩, hqInt⟩ :=
    (divWritesTheTruncatedQuotient.2 op1 op2 op3 s h1 h2 h3 h0).1 (.inl hwrap)
  obtain ⟨u, r, hmod, ⟨hr, -⟩, hrInt⟩ :=
    (modWritesTheRemainder.2 op1 op2 op3 s h1 h2 h3 h0).1 (.inl hwrap)
  have hcell : cell u op1 = (cell s op2).tmod (cell s op3) := by
    rw [cell, hr, hrInt, sub_truncatedQuotient_mul]
  refine ⟨t, u, hdiv, hmod, ?_, ?_, ?_⟩
  · have hqWrap : q = wrap64 (truncatedQuotient (cell s op2) (cell s op3)) :=
      BitVec.toInt_inj.1 (hqInt.trans (toInt_wrap64 _).symm)
    calc t.readCell op1.toNat * s.readCell op3.toNat + u.readCell op1.toNat
        = wrap64 (truncatedQuotient (cell s op2) (cell s op3)) * wrap64 (cell s op3) + wrap64 r.toInt := by
          rw [hq, hr, hqWrap, cell, cell, wrap64_toInt, wrap64_toInt]
      _ = wrap64 (cell s op2) := by rw [hrInt, ← wrap64_mul, ← wrap64_add, add_sub_cancel]
      _ = s.readCell op2.toNat := wrap64_toInt _
  · rw [hcell]
    exact natAbs_tmod_lt _ h0
  · rw [hcell]
    exact tmod_eq_zero_or_sign_eq _ _

/-- With both source operands accepted, their order shows only in the order of the two values. -/
theorem withTernary_swap {s : State} {b c : Word} (hb : s.inRange b) (hc : s.inRange c) (a : Word)
    (rest : Nat → Word → Word → Answer) :
    withTernary s a b c rest = withTernary s a c b fun d x y => rest d y x := by
  simp only [withTernary, checked_of_inRange _ hb, checked_of_inRange _ hc]

/-- Settles O36. -/
theorem addAndMulCommute : Obligations.AddAndMulCommute := by
  refine fun op1 op2 op3 s h2 h3 => ⟨?_, ?_⟩
  · rw [exec_add, exec_add, execAdd, execAdd, withTernary_swap h2 h3]
    simp only [Int.add_comm]
  · rw [exec_mul, exec_mul, execMul, execMul, withTernary_swap h2 h3]
    simp only [Int.mul_comm]

/-! ## Faults -/

/-- Settles O41: of the shapes of an answer only the overflow is a fault, and none is a refusal. -/
theorem onlyOverflowFaults : Obligations.OnlyOverflowFaults := by
  intro i s
  have hshape := exec_shape i s
  refine ⟨fun f hf => ?_, fun r hr => ?_⟩
  · rw [hf] at hshape
    cases hshape with
    | overflow hsetting => exact ⟨rfl, hsetting⟩
  · rw [hr] at hshape
    cases hshape

end Sys2Proof.Machine
end

section
/-! The obligations of 45_io.md: the byte of OUT, the request of SLEEP, and which instruction may put which event on
a port. -/

namespace Sys2Proof.Machine

open Sys2Proof.Spec

/-! ## The events of OUT and SLEEP -/

/-- The low byte of R231 is the signed cell modulo 256: the sign bit weighs a multiple of 256 (D16). -/
theorem toNat_lowByte (v : Word) : ((lowByte v).toNat : Int) = v.toInt % 256 := by
  rw [lowByte, BitVec.toNat_setWidth, BitVec.toInt_eq_toNat_cond]
  split <;> omega

/-- Settles O31. -/
theorem outEmitsTheLowByte : Obligations.OutEmitsTheLowByte := by
  refine ⟨selected_code .out, fun op1 op2 op3 s => ⟨fun h1 => ?_, fun h1 => ?_⟩⟩
  · refine ⟨lowByte (s.readCell op1.toNat), toNat_lowByte _, ?_⟩
    rw [exec_out, execOut, checked_of_inRange _ h1, State.emit, State.advance]
  · rw [exec_out, execOut, checked_eq_addressHalt _ h1]

/-- Settles O32. -/
theorem sleepEmitsTheRequest : Obligations.SleepEmitsTheRequest := by
  refine ⟨selected_code .sleep, fun op1 op2 op3 s => ⟨fun h1 => ?_, fun h1 => ?_⟩⟩
  · rw [exec_sleep, execSleep, checked_of_inRange _ h1, State.emit, State.advance]
  · rw [exec_sleep, execSleep, checked_eq_addressHalt _ h1]

/-! ## The ports -/

/-- Which events instruction `i` may append where it leaves `t`: a byte is OUT's, a request SLEEP's, a diagnostic a
zero divisor's or a halt's. -/
inductive MayEmit (i : Instr) (t : State) : Event → Prop
  | out {c : Byte} : i.mnemonic = .out → MayEmit i t (.out c)
  | sleep {d : Word} : i.mnemonic = .sleep → MayEmit i t (.sleep d)
  | zeroDivisor {d : Diagnostic} : i.mnemonic = .div ∨ i.mnemonic = .mod → MayEmit i t (.diag d)
  | halt {d : Diagnostic} : t.phase = .halt → MayEmit i t (.diag d)

/-- R255 for one instruction, by the shapes of its answer: no event, or one that it may emit. -/
theorem trace_of_exec {i : Instr} {s t : State} (h : exec i s = .next t) :
    t.trace = s.trace ∨ ∃ e, MayEmit i t e ∧ t.trace = s.trace ++ [e] := by
  have hshape := exec_shape i s
  rw [h] at hshape
  cases hshape with
  | advance => exact .inl s.advance_trace
  | noSkip => exact .inl s.advance_trace
  | skip => exact .inl s.skipNext_trace
  | jump => exact .inl (s.jumpTo_trace _)
  | write a v => exact .inl (s.writeCell_trace a.toNat v)
  | out _ _ _ hi => exact .inr ⟨_, .out (hi ▸ rfl), s.emit_trace _⟩
  | sleep _ _ _ hi => exact .inr ⟨_, .sleep (hi ▸ rfl), s.emit_trace _⟩
  | zeroDivisor hi => exact .inr ⟨_, .zeroDivisor hi, s.recover_trace _⟩
  | addressError k v => exact .inr ⟨_, .halt (s.raiseAddressError_phase k v), s.raiseAddressError_trace k v⟩

/-- A port that shows none of the events an instruction may emit stays as it was. -/
theorem filterMap_trace_of_exec {α : Type} {i : Instr} {s t : State} (h : exec i s = .next t)
    {port : Event → Option α} (hport : ∀ e, MayEmit i t e → port e = none) :
    t.trace.filterMap port = s.trace.filterMap port := by
  rcases trace_of_exec h with htrace | ⟨e, he, htrace⟩ <;> rw [htrace]
  rw [List.filterMap_append, List.filterMap_cons_none (hport e he), List.filterMap_nil, List.append_nil]

/-- Settles O51: for each port, only an event the premise excludes would show on it. -/
theorem portsCarryTheirOwnEvents : Obligations.PortsCarryTheirOwnEvents := by
  intro i s t h
  refine ⟨fun hout => ?_, fun hsleep => ?_, fun hphase hdiv hmod hrun => ?_⟩ <;>
    refine filterMap_trace_of_exec h fun e he => ?_
  · cases he with
    | out hi => exact absurd hi hout
    | sleep => rfl
    | zeroDivisor => rfl
    | halt => rfl
  · cases he with
    | out => rfl
    | sleep hi => exact absurd hi hsleep
    | zeroDivisor => rfl
    | halt => rfl
  · cases he with
    | out => rfl
    | sleep => rfl
    | zeroDivisor hi => exact absurd hi (not_or.2 ⟨hdiv, hmod⟩)
    | halt hhalt => simp [hphase, hrun] at hhalt

end Sys2Proof.Machine
end

section
/-! The obligations of 60_exceptions.md: the order of the address checks, what a fatal error leaves, and that the default
settings never stop the machine. -/

namespace Sys2Proof.Machine

open Sys2Proof.Spec

/-! ## The order of the checks -/

/-- The answer comes out of `Check` on each of these operands, in this order and before anything else (R57, R283). -/
inductive ChecksInOrder (s : State) : List Word → Answer → Prop
  | done (answer : Answer) : ChecksInOrder s [] answer
  | check {a : Word} {as : List Word} {rest : Nat → Answer} :
      ChecksInOrder s as (rest a.toNat) → ChecksInOrder s (a :: as) (checked s a rest)

theorem checksInOrder_checked (s : State) (a : Word) (rest : Nat → Answer) :
    ChecksInOrder s [a] (checked s a rest) :=
  .check (.done _)

theorem checksInOrder_checked_checked (s : State) (a b : Word) (rest : Nat → Nat → Answer) :
    ChecksInOrder s [a, b] (checked s a fun x => checked s b (rest x)) :=
  .check (checksInOrder_checked s b _)

theorem checksInOrder_withTernary (s : State) (a b c : Word) (rest : Nat → Word → Word → Answer) :
    ChecksInOrder s [a, b, c] (withTernary s a b c rest) :=
  .check (checksInOrder_checked_checked s b c _)

/-- R57 for all twelve operations: the check of the cell a pointer names comes after those of the operands. -/
theorem exec_checksInOrder (i : Instr) (s : State) : ChecksInOrder s (addressOperands i) (exec i s) := by
  cases i with
  | nop => exact .done _
  | set a =>
    rw [exec_set, execSet]
    exact checksInOrder_checked s a _
  | load a b =>
    rw [exec_load, execLoad]
    exact checksInOrder_checked_checked s a b _
  | store a b =>
    rw [exec_store, execStore]
    exact checksInOrder_checked_checked s a b _
  | jmp a =>
    rw [exec_jmp, execJmp]
    exact checksInOrder_checked s a _
  | sgz a =>
    rw [exec_sgz, execSgz]
    exact checksInOrder_checked s a _
  | add a b c =>
    rw [exec_add, execAdd]
    exact checksInOrder_withTernary s a b c _
  | mul a b c =>
    rw [exec_mul, execMul]
    exact checksInOrder_withTernary s a b c _
  | div a b c =>
    rw [exec_div, execDiv]
    exact checksInOrder_withTernary s a b c _
  | mod a b c =>
    rw [exec_mod, execMod]
    exact checksInOrder_withTernary s a b c _
  | out a =>
    rw [exec_out, execOut]
    exact checksInOrder_checked s a _
  | sleep a =>
    rw [exec_sleep, execSleep]
    exact checksInOrder_checked s a _

theorem firstRejected_cons_of_inRange {s : State} {a : Word} (h : s.inRange a) (as : List Word) :
    firstRejected s (a :: as) = firstRejected s as :=
  List.find?_cons_of_neg (by simp [h])

theorem firstRejected_cons_of_not_inRange {s : State} {a : Word} (h : ¬ s.inRange a) (as : List Word) :
    firstRejected s (a :: as) = some a :=
  List.find?_cons_of_pos (by simp [h])

/-- Checks in order halt at the first operand they reject, by induction on the operands. -/
theorem ChecksInOrder.eq_addressHalt {s : State} {operands : List Word} {answer : Answer}
    (h : ChecksInOrder s operands answer) {v : Word} (hv : firstRejected s operands = some v) :
    answer = .next (addressHalt s .memIndex v) := by
  induction h with
  | done => cases hv
  | @check a as rest _ ih =>
    by_cases ha : s.inRange a
    · rw [checked_of_inRange rest ha]
      exact ih (firstRejected_cons_of_inRange ha as ▸ hv)
    · rw [firstRejected_cons_of_not_inRange ha] at hv
      cases hv
      exact checked_eq_addressHalt rest ha

/-- Settles O34. -/
theorem firstBadOperandIsTheError : Obligations.FirstBadOperandIsTheError :=
  fun i s _ hv => (exec_checksInOrder i s).eq_addressHalt hv

/-! ## What ends a run -/

/-- The one way for an instruction to leave its phase is AddressError (R284), whatever `ip` is. -/
theorem phase_eq_or_addressError_of_exec {i : Instr} {s t : State} (h : exec i s = .next t) :
    t.phase = s.phase ∨ ∃ k v, t = s.raiseAddressError k v := by
  have hshape := exec_shape i s
  rw [h] at hshape
  cases hshape with
  | advance => exact .inl s.advance_phase
  | noSkip => exact .inl s.advance_phase
  | skip => exact .inl s.skipNext_phase
  | jump => exact .inl (s.jumpTo_phase _)
  | write a v => exact .inl (s.writeCell_phase a.toNat v)
  | out => exact .inl rfl
  | sleep => exact .inl rfl
  | zeroDivisor => exact .inl (s.recover_phase _)
  | addressError k v => exact .inr ⟨k, v, rfl⟩

/-- Settles O42. -/
theorem fatalErrorsArePrecise : Obligations.FatalErrorsArePrecise := by
  intro i s t hs h ht
  rcases phase_eq_or_addressError_of_exec h with hphase | ⟨k, v, rfl⟩
  · exact nomatch hs.symm.trans (hphase.symm.trans ht)
  · exact ⟨k, v, s.raiseAddressError_eq_addressHalt k v⟩

/-! ## The default settings -/

/-- The faults of R210 need a setting that `wraps` excludes, and no instruction is refused. -/
theorem exists_next_of_exec {s : State} (h : s.wraps) (i : Instr) : ∃ t, exec i s = .next t := by
  obtain ⟨harith, hdiv⟩ := h
  obtain ⟨hfault, hrefused⟩ := onlyOverflowFaults i s
  cases hexec : exec i s with
  | next t => exact ⟨t, rfl⟩
  | fault f =>
    obtain ⟨-, ⟨-, hset⟩ | ⟨-, hset⟩⟩ := hfault f hexec
    · exact nomatch harith.symm.trans hset
    · exact nomatch hdiv.symm.trans hset
  | refused r => exact absurd hexec (hrefused r)

/-- Past the end and at an unassigned opcode the Executor answers a next state under any setting (R143, R147). -/
theorem exists_next_of_runStep {s : State} (h : s.wraps) : ∃ t, runStep s = .next t := by
  rcases runStep_cases s with ⟨-, e⟩ | ⟨-, i, -, -, e⟩ | ⟨r, -, -, e⟩
  · exact ⟨_, e⟩
  · exact e ▸ exists_next_of_exec h i
  · exact ⟨_, e⟩

/-- Settles O40. -/
theorem wrapSettingsNeverStop : Obligations.WrapSettingsNeverStop :=
  fun _ hwraps hs => ⟨step_run hs ▸ exists_next_of_runStep hwraps, exists_next_of_exec hwraps⟩

end Sys2Proof.Machine
end

section
/-! The obligation of 70_reset_and_hazards.md: a reset by the host starts a sound new load. Of the old state only the
parameters reach the new one, so what reads neither them nor the IN port is carried over from `resetIsSound`. -/

namespace Sys2Proof.Machine

/-- R330: the new load is at offset 0, whatever the host supplies. -/
theorem inHeader_hostReset (s : State) (input : Input) : InHeader (s.hostReset input) :=
  { inHeader_reset with }

/-- R330, R259: legal parameters are all that a sound reset by the host needs of the old state. -/
theorem State.inv_hostReset {s : State} (h : s.cfg.wf) (input : Input) : (s.hostReset input).Inv :=
  have hreset : State.reset.Inv := resetIsSound
  { cfgLegal := h
    memCanonical := hreset.memCanonical
    memInside := hreset.memInside
    memFits := Nat.zero_le _
    progFits := fun hp => absurd rfl hp
    ipBound := hreset.ipBound
    statusZero := hreset.statusZero
    statusAtEnd := fun _ => .inl rfl
    loadFresh := fun _ => ⟨rfl, rfl, rfl, nofun⟩
    loadSound := fun _ => (inHeader_hostReset s input).loaderInv
    loadOver := fun hp => absurd rfl hp
    runMemory := hreset.runMemory }

/-- The new run reads nothing of the old one but its parameters. -/
theorem State.hostReset_congr {s u : State} (h : u.cfg = s.cfg) (input : Input) :
    u.hostReset input = s.hostReset input := by
  rw [State.hostReset, State.hostReset, h]

/-- Settles O18. -/
theorem hostResetStartsAnew : Obligations.HostResetStartsAnew :=
  fun _ input h => ⟨State.inv_hostReset h input, rfl, rfl, fun _ hu => State.hostReset_congr hu input⟩

end Sys2Proof.Machine
end
